-- ==== Sys2Proof/Word.lean ====
section
/-! DEFINITION. The engine's word types (00_scope.md R3, section 4; 30_encoding.md R41). Bit 0 is the least
significant bit and every value is unsigned. -/

namespace Sys2Proof

/-- A 32-bit unsigned word (R3). -/
abbrev Word := BitVec 32

/-- A byte of a block or of a digest (20_memory.md R29, R30). -/
abbrev Byte := BitVec 8

/-- A 38-bit command word `CW[37:0]` (R41). -/
abbrev CommandWord := BitVec 38

/-- A 5-bit word index into the register window (20_memory.md R28). -/
abbrev WindowIndex := BitVec 5

end Sys2Proof
end

