-- ==== Sys2Proof/Syntax.lean ====
section
/-! DEFINITION. The host transactions, one constructor per row of spec/opcode_table.json (30_encoding.md R42). Every
constructor carries the whole of the command word's `WDATA`, the ignored ones too, so that a command word and its
transaction determine each other (notes/assumptions/8.md). -/

namespace Sys2Proof

/-- A host transaction (R42). `i`, `j` and `idx` are the window-index operands of R43; the last operand is WDATA. -/
inductive Instr where
  /-- WR_BLOCK: write `BLOCK_W[i]` (R51). -/
  | wrBlock (i : BitVec 4) (v : Word)
  /-- RD_BLOCK: read `BLOCK_W[i]` (R52). WDATA is ignored. -/
  | rdBlock (i : BitVec 4) (d : Word)
  /-- RD_DIGEST: read `DIGEST[j]` (R53). WDATA is ignored. -/
  | rdDigest (j : BitVec 3) (d : Word)
  /-- WR_DIGEST: no effect (R54). WDATA is ignored. -/
  | wrDigest (j : BitVec 3) (d : Word)
  /-- WR_CTRL: START when bit 0 of `d` is 1 and the engine is idle (R55). -/
  | wrCtrl (d : Word)
  /-- RD_CTRL: reads 0 (R56). WDATA is ignored. -/
  | rdCtrl (d : Word)
  /-- RD_STATUS: reads DONE and BUSY (R57). WDATA is ignored. -/
  | rdStatus (d : Word)
  /-- WR_STATUS: no effect (R58). WDATA is ignored. -/
  | wrStatus (d : Word)
  /-- RD_RSVD, indices 26 and 27: reads 0 (R59). `idx` is the whole window index. -/
  | rdRsvdA (idx : WindowIndex) (d : Word)
  /-- RD_RSVD, indices 28..31: reads 0 (R59). -/
  | rdRsvdB (idx : WindowIndex) (d : Word)
  /-- WR_RSVD, indices 26 and 27: no effect (R60). -/
  | wrRsvdA (idx : WindowIndex) (d : Word)
  /-- WR_RSVD, indices 28..31: no effect (R60). -/
  | wrRsvdB (idx : WindowIndex) (d : Word)
  deriving DecidableEq, Repr

end Sys2Proof
end

