-- ==== Sys2Proof/WellFormed.lean ====
section
/-! DEFINITION. When a transaction's operands are the ones its row admits (30_encoding.md R42, R43). The indices of
`BLOCK_W` and `DIGEST` are exact by their types; the reserved rows carry a whole window index and are checked. -/

namespace Sys2Proof

/-- The index of row (a) of RD_RSVD and WR_RSVD: 26 or 27 (R42). -/
def isReservedA (idx : WindowIndex) : Bool := idx == 26#5 || idx == 27#5

/-- The index of row (b) of RD_RSVD and WR_RSVD: 28..31 (R42). -/
def isReservedB (idx : WindowIndex) : Bool := idx == 28#5 || idx == 29#5 || idx == 30#5 || idx == 31#5

/-- The operands are ones the row admits (R42, R59, R60: "IDX in 26..31"). -/
def Instr.wellFormed : Instr → Bool
  | .wrBlock _ _ => true
  | .rdBlock _ _ => true
  | .rdDigest _ _ => true
  | .wrDigest _ _ => true
  | .wrCtrl _ => true
  | .rdCtrl _ => true
  | .rdStatus _ => true
  | .wrStatus _ => true
  | .rdRsvdA idx _ => isReservedA idx
  | .rdRsvdB idx _ => isReservedB idx
  | .wrRsvdA idx _ => isReservedA idx
  | .wrRsvdB idx _ => isReservedB idx

end Sys2Proof
end

