-- ==== Sys2Proof/Decode.lean ====
section
/-! DEFINITION. The command word's fields, the opcode map, the decoder and the encoder (30_encoding.md R41 to R45,
R48; opcode_table.json). The decoder is total on numbers: a number of more than 38 bits is no command word and is
rejected by name. -/

namespace Sys2Proof

/-- Field WE, bit 37 (R41). -/
def cmdWe (cw : CommandWord) : Bool := cw.getLsbD 37

/-- Field IDX, bits 36:32 (R41). -/
def cmdIdx (cw : CommandWord) : WindowIndex := cw.extractLsb' 32 5

/-- Field WDATA, bits 31:0 (R41). -/
def cmdData (cw : CommandWord) : Word := cw.extractLsb' 0 32

/-- The command word of three fields: `{WE, IDX, WDATA}` (R41). -/
def packCommand (we : Bool) (idx : WindowIndex) (d : Word) : CommandWord := BitVec.ofBool we ++ idx ++ d

/-- `i = IDX[3:0]` (R43). -/
def blockField (idx : WindowIndex) : BitVec 4 := idx.extractLsb' 0 4

/-- `j = IDX[2:0]` (R43). -/
def digestField (idx : WindowIndex) : BitVec 3 := idx.extractLsb' 0 3

/-- IDX matches 0iiii (R42). -/
def isBlockIdx (idx : WindowIndex) : Bool := idx.extractLsb' 4 1 == 0#1

/-- IDX matches 10jjj (R42). -/
def isDigestIdx (idx : WindowIndex) : Bool := idx.extractLsb' 3 2 == 2#2

/-- IDX matches 1101x (R42). -/
def isRsvdAIdx (idx : WindowIndex) : Bool := idx.extractLsb' 1 4 == 13#4

/-- The rows with WE = 0 (R42). What is left at the end is IDX = 111xx. -/
def decodeRead (idx : WindowIndex) (d : Word) : Instr :=
  if isBlockIdx idx then .rdBlock (blockField idx) d
  else if isDigestIdx idx then .rdDigest (digestField idx) d
  else if idx == 24#5 then .rdCtrl d
  else if idx == 25#5 then .rdStatus d
  else if isRsvdAIdx idx then .rdRsvdA idx d
  else .rdRsvdB idx d

/-- The rows with WE = 1 (R42). What is left at the end is IDX = 111xx. -/
def decodeWrite (idx : WindowIndex) (d : Word) : Instr :=
  if isBlockIdx idx then .wrBlock (blockField idx) d
  else if isDigestIdx idx then .wrDigest (digestField idx) d
  else if idx == 24#5 then .wrCtrl d
  else if idx == 25#5 then .wrStatus d
  else if isRsvdAIdx idx then .wrRsvdA idx d
  else .wrRsvdB idx d

/-- The transaction a command word selects: each of the 2^38 words has one (R42, R44). -/
def decodeCommand (cw : CommandWord) : Instr :=
  if cmdWe cw then decodeWrite (cmdIdx cw) (cmdData cw) else decodeRead (cmdIdx cw) (cmdData cw)

/-- Why a number is no command word. -/
inductive DecodeReject where
  /-- It has a bit above bit 37, and a command word is 38 bits (R41, R48). Raised by `decode`. Safe. -/
  | widerThan38Bits
  deriving DecidableEq, Repr

/-- Decode a number written as R41 writes a command word, `WE * 2^37 + IDX * 2^32 + WDATA`. -/
def decode (w : Nat) : Except DecodeReject Instr :=
  if w < 2 ^ 38 then .ok (decodeCommand (BitVec.ofNat 38 w)) else .error .widerThan38Bits

/-- The table's word of `nbits` bits (40 for every row, 38 in whole bytes), read by `decode`. -/
def decodeTableWord (nbits w : Nat) : Option Instr :=
  match decode (w % 2 ^ nbits) with
  | .ok i => some i
  | .error _ => none

/-- The transaction is a read (WE = 0; R41). -/
def Instr.isRead : Instr → Bool
  | .wrBlock _ _ => false
  | .rdBlock _ _ => true
  | .rdDigest _ _ => true
  | .wrDigest _ _ => false
  | .wrCtrl _ => false
  | .rdCtrl _ => true
  | .rdStatus _ => true
  | .wrStatus _ => false
  | .rdRsvdA _ _ => true
  | .rdRsvdB _ _ => true
  | .wrRsvdA _ _ => false
  | .wrRsvdB _ _ => false

/-- The WDATA operand of a transaction (R41). -/
def Instr.wdata : Instr → Word
  | .wrBlock _ v => v
  | .rdBlock _ d => d
  | .rdDigest _ d => d
  | .wrDigest _ d => d
  | .wrCtrl d => d
  | .rdCtrl d => d
  | .rdStatus d => d
  | .wrStatus d => d
  | .rdRsvdA _ d => d
  | .rdRsvdB _ d => d
  | .wrRsvdA _ d => d
  | .wrRsvdB _ d => d

/-- The canonical spelling of R43: a read has WDATA = 0. -/
def Instr.isCanonical (i : Instr) : Bool := !i.isRead || i.wdata == 0#32

/-- IDX = 0iiii (R42). -/
def blockIdx (i : BitVec 4) : WindowIndex := 0#1 ++ i

/-- IDX = 10jjj (R42). -/
def digestIdx (j : BitVec 3) : WindowIndex := 2#2 ++ j

/-- The window index of a transaction (R28, R42). -/
def Instr.idx : Instr → WindowIndex
  | .wrBlock i _ => blockIdx i
  | .rdBlock i _ => blockIdx i
  | .rdDigest j _ => digestIdx j
  | .wrDigest j _ => digestIdx j
  | .wrCtrl _ => 24#5
  | .rdCtrl _ => 24#5
  | .rdStatus _ => 25#5
  | .wrStatus _ => 25#5
  | .rdRsvdA idx _ => idx
  | .rdRsvdB idx _ => idx
  | .wrRsvdA idx _ => idx
  | .wrRsvdB idx _ => idx

/-- The command word of a transaction (R41, R42). -/
def encode (i : Instr) : CommandWord := packCommand (!i.isRead) i.idx i.wdata

/-- One row of the opcode map: a word matches when `(CW & mask) == pattern` (R42). -/
structure OpcodeRow where
  mnemonic : String
  mask : CommandWord
  pattern : CommandWord
  deriving DecidableEq, Repr

/-- The row of R42 that a transaction belongs to, written from opcode_table.json. -/
def Instr.row : Instr → OpcodeRow
  | .wrBlock _ _ => ⟨"WR_BLOCK", 0x3000000000#38, 0x2000000000#38⟩
  | .rdBlock _ _ => ⟨"RD_BLOCK", 0x3000000000#38, 0x0000000000#38⟩
  | .rdDigest _ _ => ⟨"RD_DIGEST", 0x3800000000#38, 0x1000000000#38⟩
  | .wrDigest _ _ => ⟨"WR_DIGEST", 0x3800000000#38, 0x3000000000#38⟩
  | .wrCtrl _ => ⟨"WR_CTRL", 0x3F00000000#38, 0x3800000000#38⟩
  | .rdCtrl _ => ⟨"RD_CTRL", 0x3F00000000#38, 0x1800000000#38⟩
  | .rdStatus _ => ⟨"RD_STATUS", 0x3F00000000#38, 0x1900000000#38⟩
  | .wrStatus _ => ⟨"WR_STATUS", 0x3F00000000#38, 0x3900000000#38⟩
  | .rdRsvdA _ _ => ⟨"RD_RSVD_a", 0x3E00000000#38, 0x1A00000000#38⟩
  | .rdRsvdB _ _ => ⟨"RD_RSVD_b", 0x3C00000000#38, 0x1C00000000#38⟩
  | .wrRsvdA _ _ => ⟨"WR_RSVD_a", 0x3E00000000#38, 0x3A00000000#38⟩
  | .wrRsvdB _ _ => ⟨"WR_RSVD_b", 0x3C00000000#38, 0x3C00000000#38⟩

/-- The opcode map of R42, one row per transaction (the operands here are only place holders). -/
def opcodeTable : List OpcodeRow :=
  [Instr.row (.wrBlock 0 0), Instr.row (.rdBlock 0 0), Instr.row (.rdDigest 0 0), Instr.row (.wrDigest 0 0)] ++
  [Instr.row (.wrCtrl 0), Instr.row (.rdCtrl 0), Instr.row (.rdStatus 0), Instr.row (.wrStatus 0)] ++
  [Instr.row (.rdRsvdA 26 0), Instr.row (.rdRsvdB 28 0), Instr.row (.wrRsvdA 26 0), Instr.row (.wrRsvdB 28 0)]

/-- A command word matches a row (R42). -/
def OpcodeRow.matches (r : OpcodeRow) (cw : CommandWord) : Bool := cw &&& r.mask == r.pattern

end Sys2Proof
end

