-- ==== Sys2Proof/Config.lean ====
section
/-! DEFINITION. What the spec leaves open. A constant here has no body: no proof can see its value, so a claim
about the engine is true whatever it is. -/

namespace Sys2Proof.Config

/-- The `n`-th free value drawn: what the spec calls unspecified and lets be any value (`txn_rdata` outside a read
cycle, 20_memory.md R27; `a..h` and `SW` after a reset edge, 70_reset_and_hazards.md R98; the treatment `any value`
of 93_implementation_defined.md). DESIGN CHOICE in form only (notes/assumptions/3.md): safe. -/
opaque freeWord : Nat → Word

/-- How many engine copies a platform has beyond the first (92_eei_decisions.md D17, OPEN). -/
opaque extraEngines : Nat

/-- `NUM_ENGINES`, at least 1 (D17; 00_scope.md section 4). -/
def numEngines : Nat := extraEngines + 1

end Sys2Proof.Config
end

