-- ==== Sys2Proof/Machine/State.lean ====
section
/-! DEFINITION. The state: the engine of 10_state.md R9, component by component, and beside it the port (what the host
will present, what the engine last drove) and the model's own bookkeeping. -/

namespace Sys2Proof.Machine

/-- Why the machine stops with a fault. The engine raises no exception, no trap and no error response
(60_exceptions.md R90), so there is no fault: nothing raises one. Safe. -/
inductive Fault where
  deriving DecidableEq, Repr

/-- Why a step has no meaning. -/
inductive Refusal where
  /-- An instruction with no meaning yet. Raised by no arm: every transaction has its meaning. Safe. -/
  | notModelled (mnemonic : String)
  /-- A cycle without reset before the first reset edge: "A model starts from the state after a reset edge and has no
  meaning for a run without one: it refuses such a run" (70_reset_and_hazards.md R100). Raised by `clockEdge`. Safe. -/
  | noResetSincePowerOn
  deriving DecidableEq, Repr

/-- `FSM`, the sequencer state (R17). The unused code 0b11 of 30_encoding.md R47 is not representable. -/
inductive Fsm where
  | idle
  | round
  | final
  deriving DecidableEq, Repr

/-- The working registers `a..h` (R15). -/
structure Working where
  a : Word
  b : Word
  c : Word
  d : Word
  e : Word
  f : Word
  g : Word
  h : Word
  deriving DecidableEq, Repr

/-- The state of one engine: exactly the components of R9 (the ROMs are constants: R26, Machine/Rom.lean). -/
structure Engine where
  /-- `BLOCK_W[0..15]` (R10). -/
  blockW : Vector Word 16
  /-- `DIGEST[0..7]` (R11). -/
  digest : Vector Word 8
  /-- `DONE` (R19). -/
  done : Bool
  /-- `FSM` (R17). -/
  fsm : Fsm
  /-- `RND` (R18). -/
  rnd : BitVec 6
  /-- `a..h` (R15). -/
  work : Working
  /-- `SW[0..15]` (R16). -/
  sw : Vector Word 16
  deriving DecidableEq, Repr

/-- What the outside drives into one cycle (20_memory.md R27): the reset input, and the transaction, `none` when
`txn_valid` = 0 and otherwise the command word that carries `txn_we`, `txn_idx` and `txn_wdata` (30_encoding.md
R41). -/
structure PortCycle where
  rst : Bool
  txn : Option CommandWord
  deriving DecidableEq, Repr

/-- The state of the model. -/
structure State where
  /-- The engine (R9). -/
  engine : Engine
  /-- The cycles the outside will present, the next one first (00_scope.md R8; notes/assumptions/1.md). -/
  inputs : List PortCycle
  /-- `txn_rdata` of the last cycle (R8, R27; notes/assumptions/2.md). -/
  rdata : Word
  /-- How many free values have been drawn: the model's own (notes/assumptions/3.md). -/
  draws : Nat
  /-- A reset edge has been taken since power-on (70_reset_and_hazards.md R100; notes/assumptions/6.md). -/
  resetDone : Bool
  deriving DecidableEq, Repr

/-- Every working register zero: what `State.reset` names for the unspecified `a..h` (R15).
DESIGN CHOICE, unsafe (notes/assumptions/4.md). -/
def Working.zero : Working := ⟨0#32, 0#32, 0#32, 0#32, 0#32, 0#32, 0#32, 0#32⟩

/-- The engine right after reset (70_reset_and_hazards.md R98). `work` and `sw` are unspecified there and zero here:
DESIGN CHOICE, unsafe (notes/assumptions/4.md). -/
def Engine.reset : Engine where
  blockW := Vector.replicate 16 0#32
  digest := Vector.replicate 8 0#32
  done := false
  fsm := .idle
  rnd := 0#6
  work := Working.zero
  sw := Vector.replicate 16 0#32

/-- The machine right after reset (R98, R99), with nothing presented yet. `rdata`, `draws` and `inputs` are the model's
own and DESIGN CHOICE (notes/assumptions/5.md). -/
def State.reset : State where
  engine := Engine.reset
  inputs := []
  rdata := 0#32
  draws := 0
  resetDone := true

end Sys2Proof.Machine
end

