-- ==== Sys2Proof/Machine/Flags.lean ====
section
/-! DEFINITION. The only two flags, BUSY and DONE, and the STATUS word that shows them (10_state.md R13, R19, R20). No
datapath operation sets a flag. -/

namespace Sys2Proof.Machine

/-- The internal code of `FSM`: IDLE = 0b00, ROUND = 0b01, FINAL = 0b10 (30_encoding.md R47). -/
def Fsm.code : Fsm → BitVec 2
  | .idle => 0#2
  | .round => 1#2
  | .final => 2#2

/-- `BUSY = (FSM != IDLE)` (R17, R20). -/
def Engine.busy (e : Engine) : Bool := e.fsm != .idle

/-- `STATUS = zext_32({DONE, BUSY})` (R13). -/
def Engine.statusWord (e : Engine) : Word := (BitVec.ofBool e.done ++ BitVec.ofBool e.busy).setWidth 32

/-- A read of CTRL returns 0 in every state: CTRL has no storage (R12). -/
def ctrlReadValue : Word := 0#32

/-- A read of a reserved index returns 0 (R14). -/
def reservedReadValue : Word := 0#32

end Sys2Proof.Machine
end

