-- ==== Sys2Proof/Machine/Operands.lean ====
section
/-! DEFINITION. The operand forms of 30_encoding.md R43 as a transaction's meaning uses them: the decoder has already
placed `i`, `j` and WDATA in the transaction (Decode.lean). -/

namespace Sys2Proof.Machine

/-- `START = WDATA[0]` of a CTRL write; `WDATA[31:1]` is reserved and ignored (R43, R45). -/
def startBit (d : Word) : Bool := d.getLsbD 0

/-- `BLOCK_W[i]` (10_state.md R10). -/
def Engine.blockWord (e : Engine) (i : BitVec 4) : Word := e.blockW[i.toNat]

/-- `BLOCK_W[i] <- v` (R10, 40_host_commands.md R51). -/
def Engine.setBlockWord (e : Engine) (i : BitVec 4) (v : Word) : Engine :=
  { e with blockW := e.blockW.set i.toNat v }

/-- `DIGEST[j]` (10_state.md R11). -/
def Engine.digestWord (e : Engine) (j : BitVec 3) : Word := e.digest[j.toNat]

end Sys2Proof.Machine
end

