-- ==== Sys2Proof/Machine/Datapath.lean ====
section
/-! DEFINITION. The combinational functions of the round datapath and the schedule expander (41_datapath_functions.md
R61 to R75). Each is written as its rule's pseudocode. None reads or writes state, sets a flag or raises anything. -/

namespace Sys2Proof.Machine

/-- `x + y` modulo 2^32; the carry out of bit 31 is discarded (R61). -/
def add32 (x y : Word) : Word := x + y

/-- `rotr(x, n) = ((x >> n) | (x << (32 - n))) mod 2^32`. `rotr(x, 0) = rotr(x, 32) = x` comes out of the same
expression (R62). -/
def rotr (x : Word) (n : Nat) : Word := (x >>> n) ||| (x <<< (32 - n))

/-- `x >> n`, the logical right shift (R63). -/
def shr (x : Word) (n : Nat) : Word := x >>> n

/-- `σ0(x)` (R65). -/
def smallSigma0 (x : Word) : Word := rotr x 7 ^^^ rotr x 18 ^^^ shr x 3

/-- `σ1(x)` (R66). -/
def smallSigma1 (x : Word) : Word := rotr x 17 ^^^ rotr x 19 ^^^ shr x 10

/-- `Σ0(x)` (R67). -/
def capSigma0 (x : Word) : Word := rotr x 2 ^^^ rotr x 13 ^^^ rotr x 22

/-- `Σ1(x)` (R68). -/
def capSigma1 (x : Word) : Word := rotr x 6 ^^^ rotr x 11 ^^^ rotr x 25

/-- `Ch(e, f, g)` (R69). -/
def choose (e f g : Word) : Word := (e &&& f) ^^^ (~~~e &&& g)

/-- `Maj(a, b, c)` (R70). -/
def majority (a b c : Word) : Word := (a &&& b) ^^^ (a &&& c) ^^^ (b &&& c)

/-- `T1 = h + Σ1(e) + Ch(e, f, g) + K[i] + W[i]` (R71). -/
def temp1 (e f g h k w : Word) : Word :=
  add32 (add32 (add32 (add32 h (capSigma1 e)) (choose e f g)) k) w

/-- `T2 = Σ0(a) + Maj(a, b, c)` (R72). -/
def temp2 (a b c : Word) : Word := add32 (capSigma0 a) (majority a b c)

/-- The recurrence of the message schedule on its four taps `W[i-2]`, `W[i-7]`, `W[i-15]`, `W[i-16]` (R73). -/
def scheduleWord (w2 w7 w15 w16 : Word) : Word :=
  add32 (add32 (add32 (smallSigma1 w2) w7) (smallSigma0 w15)) w16

/-- `round(i, (a, ..., h), w)` with the round constant `k = K[i]` (R74). -/
def roundFn (k : Word) (r : Working) (w : Word) : Working where
  a := add32 (temp1 r.e r.f r.g r.h k w) (temp2 r.a r.b r.c)
  b := r.a
  c := r.b
  d := r.c
  e := add32 r.d (temp1 r.e r.f r.g r.h k w)
  f := r.e
  g := r.f
  h := r.g

/-- The working values of algorithm step 1: `(H[0], ..., H[7])` (R76, 42_sequencer.md R79). -/
def initialWork : Working where
  a := romH[0]
  b := romH[1]
  c := romH[2]
  d := romH[3]
  e := romH[4]
  f := romH[5]
  g := romH[6]
  h := romH[7]

/-- The digest words of R75: each ROM constant plus its working register. -/
def finalize (r : Working) : Vector Word 8 :=
  #v[add32 romH[0] r.a, add32 romH[1] r.b, add32 romH[2] r.c, add32 romH[3] r.d,
     add32 romH[4] r.e, add32 romH[5] r.f, add32 romH[6] r.g, add32 romH[7] r.h]

end Sys2Proof.Machine
end

