-- ==== Sys2Proof/Machine/Sequencer.lean ====
section
/-! DEFINITION. The sequencer and the message schedule expander (42_sequencer.md R77 to R83). A step computes its
writes from the engine before the edge and lays them over the engine as the cycle's transaction leaves it, so that the
two take effect together (R77; 00_scope.md R6). -/

namespace Sys2Proof.Machine

/-- The START step (R79), which fires when an idle engine gets a CTRL write with bit 0 set. -/
def Engine.start (e : Engine) : Engine :=
  { e with work := initialWork, sw := e.blockW, rnd := 0#6, fsm := .round, done := false }

/-- The window after a ROUND edge: shifted down one word, the new schedule word at the top (R81). -/
def shiftWindow (sw : Vector Word 16) : Vector Word 16 :=
  Vector.ofFn fun k : Fin 16 =>
    if h : k.val + 1 < 16 then sw[k.val + 1] else scheduleWord sw[14] sw[9] sw[1] sw[0]

/-- The ROUND edge: the round datapath (R80), the expander (R81), the round counter and the exit (R82). -/
def roundEdge (before after : Engine) : Engine :=
  { after with
    work := roundFn (kAt before.rnd) before.work before.sw[0]
    sw := shiftWindow before.sw
    rnd := before.rnd + 1#6
    fsm := if before.rnd = 63#6 then .final else after.fsm }

/-- The FINAL edge (R83): all eight DIGEST words at once, DONE, and back to IDLE. -/
def finalEdge (before after : Engine) : Engine :=
  { after with digest := finalize before.work, done := true, fsm := .idle }

/-- The sequencer's step of one edge without reset, chosen by `FSM` before the edge (R77, R78). In IDLE it writes
nothing of its own: an accepted START is written by the transaction (R55, R79). -/
def sequencerStep (before after : Engine) : Engine :=
  match before.fsm with
  | .idle => after
  | .round => roundEdge before after
  | .final => finalEdge before after

end Sys2Proof.Machine
end

