-- ==== Sys2Proof/Machine/Ops.lean ====
section
/-! DEFINITION. The operations shared by the transactions and the step: the port's read data, the window as one map,
the reset edge, the queue of presented cycles. The engine takes no exception and returns from none (60_exceptions.md
R90 to R92), so no such operation stands here. -/

namespace Sys2Proof.Machine

/-- Put `e` in the place of the engine. -/
def State.withEngine (s : State) (e : Engine) : State := { s with engine := e }

/-- A read cycle: `txn_rdata` is `v` (20_memory.md R32). -/
def State.drive (s : State) (v : Word) : State := { s with rdata := v }

/-- A cycle in which the spec leaves `txn_rdata` undefined (R27): a fresh free value (notes/assumptions/3.md). -/
def State.undriven (s : State) : State := { s with rdata := Config.freeWord s.draws, draws := s.draws + 1 }

/-- The word at a window index, as a read returns it (R28; 10_state.md R10 to R14). -/
def windowRead (e : Engine) (idx : WindowIndex) : Word :=
  if idx.toNat < 16 then e.blockWord (idx.extractLsb' 0 4)
  else if idx.toNat < 24 then e.digestWord (idx.extractLsb' 0 3)
  else if idx = 24#5 then ctrlReadValue
  else if idx = 25#5 then e.statusWord
  else reservedReadValue

/-- Free values for `a..h` after a reset edge, drawn from the `n`-th on (R98). -/
def freeWorking (n : Nat) : Working where
  a := Config.freeWord n
  b := Config.freeWord (n + 1)
  c := Config.freeWord (n + 2)
  d := Config.freeWord (n + 3)
  e := Config.freeWord (n + 4)
  f := Config.freeWord (n + 5)
  g := Config.freeWord (n + 6)
  h := Config.freeWord (n + 7)

/-- Free values for `SW[0..15]` after a reset edge, drawn from the `n`-th on (R98). -/
def freeWindow (n : Nat) : Vector Word 16 := Vector.ofFn fun k : Fin 16 => Config.freeWord (n + k.val)

/-- How many free values a reset edge draws: `a..h`, `SW` and `txn_rdata`. -/
def resetDraws : Nat := 25

/-- The reset edge (70_reset_and_hazards.md R98): the transaction is discarded, the sequencer takes no step. -/
def resetEdge (s : State) : State where
  engine := { Engine.reset with work := freeWorking s.draws, sw := freeWindow (s.draws + 8) }
  inputs := s.inputs
  rdata := Config.freeWord (s.draws + 24)
  draws := s.draws + resetDraws
  resetDone := true

/-- The state of a powered-on engine before any reset edge: every component is unspecified (R100), so it is any engine. -/
def State.powerOn (e : Engine) (inputs : List PortCycle) (rdata : Word) : State where
  engine := e
  inputs := inputs
  rdata := rdata
  draws := 0
  resetDone := false

/-- A cycle with `rst` = 0 and `txn_valid` = 0 (30_encoding.md R46). -/
def PortCycle.idle : PortCycle := ⟨false, none⟩

/-- A cycle that presents a transaction (R41). -/
def PortCycle.command (cw : CommandWord) : PortCycle := ⟨false, some cw⟩

/-- A cycle with `rst` = 1 and no transaction. -/
def PortCycle.reset : PortCycle := ⟨true, none⟩

/-- What the outside presents in the coming cycle; nothing once the list has run out (notes/assumptions/1.md). -/
def State.nextCycle (s : State) : PortCycle := s.inputs.headD PortCycle.idle

/-- The state once the coming cycle has been taken from the list. -/
def State.popCycle (s : State) : State := { s with inputs := s.inputs.tail }

/-- What the sequencer adds to the outcome of the cycle's transaction (42_sequencer.md R77). -/
def withSequencer (before : Engine) : Host.Outcome State Fault Refusal → Host.Outcome State Fault Refusal
  | .next t => .next (t.withEngine (sequencerStep before t.engine))
  | .fault f => .fault f
  | .refused r => .refused r

end Sys2Proof.Machine
end

