-- ==== Sys2Proof/Machine/BlockWindow.lean ====
section
/-! DEFINITION. The transactions on the block input buffer, WR_BLOCK and RD_BLOCK (40_host_commands.md R51, R52). -/

namespace Sys2Proof.Machine

/-- WR_BLOCK (R51): `BLOCK_W[i] <- v`, in every FSM state. -/
def execWrBlock (i : BitVec 4) (v : Word) (s : State) : Host.Outcome State Fault Refusal :=
  .next (s.undriven.withEngine (s.engine.setBlockWord i v))

/-- RD_BLOCK (R52): `rdata = BLOCK_W[i]`. No state changes. -/
def execRdBlock (i : BitVec 4) (s : State) : Host.Outcome State Fault Refusal :=
  .next (s.drive (s.engine.blockWord i))

end Sys2Proof.Machine
end

