-- ==== Sys2Proof/Machine/Control.lean ====
section
/-! DEFINITION. The transactions on CTRL and STATUS (40_host_commands.md R55 to R58). -/

namespace Sys2Proof.Machine

/-- A CTRL write is an accepted START (R55): bit 0 set, in IDLE. -/
def acceptsStart (d : Word) (e : Engine) : Bool := startBit d && e.fsm == .idle

/-- WR_CTRL (R55): an accepted START performs the START step (42_sequencer.md R79); otherwise no state changes. -/
def execWrCtrl (d : Word) (s : State) : Host.Outcome State Fault Refusal :=
  .next (s.undriven.withEngine (if acceptsStart d s.engine then s.engine.start else s.engine))

/-- RD_CTRL (R56): `rdata = 0`. No state changes. -/
def execRdCtrl (s : State) : Host.Outcome State Fault Refusal := .next (s.drive ctrlReadValue)

/-- RD_STATUS (R57): `rdata = zext_32({DONE, (FSM != IDLE)})`. No state changes. -/
def execRdStatus (s : State) : Host.Outcome State Fault Refusal := .next (s.drive s.engine.statusWord)

/-- WR_STATUS (R58): silently dropped. -/
def execWrStatus (s : State) : Host.Outcome State Fault Refusal := .next s.undriven

end Sys2Proof.Machine
end

