-- ==== Sys2Proof/Machine/DigestWindow.lean ====
section
/-! DEFINITION. The transactions on the digest register, RD_DIGEST and WR_DIGEST (40_host_commands.md R53, R54). -/

namespace Sys2Proof.Machine

/-- RD_DIGEST (R53): `rdata = DIGEST[j]`. No state changes. -/
def execRdDigest (j : BitVec 3) (s : State) : Host.Outcome State Fault Refusal :=
  .next (s.drive (s.engine.digestWord j))

/-- WR_DIGEST (R54): silently dropped. -/
def execWrDigest (s : State) : Host.Outcome State Fault Refusal := .next s.undriven

end Sys2Proof.Machine
end

