-- ==== Sys2Proof/Machine/Reserved.lean ====
section
/-! DEFINITION. The transactions on the reserved window indices 26..31 (40_host_commands.md R59, R60), one meaning for
each row of the opcode map. -/

namespace Sys2Proof.Machine

/-- RD_RSVD, row (a) (R59): `rdata = 0`. No state changes. -/
def execRdRsvdA (s : State) : Host.Outcome State Fault Refusal := .next (s.drive reservedReadValue)

/-- RD_RSVD, row (b) (R59): `rdata = 0`. No state changes. -/
def execRdRsvdB (s : State) : Host.Outcome State Fault Refusal := .next (s.drive reservedReadValue)

/-- WR_RSVD, row (a) (R60): silently dropped. -/
def execWrRsvdA (s : State) : Host.Outcome State Fault Refusal := .next s.undriven

/-- WR_RSVD, row (b) (R60): silently dropped. -/
def execWrRsvdB (s : State) : Host.Outcome State Fault Refusal := .next s.undriven

end Sys2Proof.Machine
end

