-- ==== Sys2Proof/Machine/Dispatch.lean ====
section
/-! DEFINITION. The meaning of each transaction, one arm per row of the opcode map (30_encoding.md R42). It is the
transaction's own effect; the sequencer's step of the same edge is added by `clockEdge` (42_sequencer.md R77). -/

namespace Sys2Proof.Machine

def exec (i : Instr) (s : State) : Host.Outcome State Fault Refusal :=
  match i with
  | .wrBlock k v => Sys2Proof.Machine.execWrBlock k v s
  | .rdBlock k _ => Sys2Proof.Machine.execRdBlock k s
  | .rdDigest j _ => Sys2Proof.Machine.execRdDigest j s
  | .wrDigest _ _ => Sys2Proof.Machine.execWrDigest s
  | .wrCtrl d => Sys2Proof.Machine.execWrCtrl d s
  | .rdCtrl _ => Sys2Proof.Machine.execRdCtrl s
  | .rdStatus _ => Sys2Proof.Machine.execRdStatus s
  | .wrStatus _ => Sys2Proof.Machine.execWrStatus s
  | .rdRsvdA _ _ => Sys2Proof.Machine.execRdRsvdA s
  | .rdRsvdB _ _ => Sys2Proof.Machine.execRdRsvdB s
  | .wrRsvdA _ _ => Sys2Proof.Machine.execWrRsvdA s
  | .wrRsvdB _ _ => Sys2Proof.Machine.execWrRsvdB s

end Sys2Proof.Machine
end

