-- ==== Sys2Proof/Machine/Edge.lean ====
section
/-! DEFINITION. One clock edge, `step(S, rst, txn)` of 00_scope.md R8, with the priorities of 60_exceptions.md R94. -/

namespace Sys2Proof.Machine

/-- The effect of the cycle's transaction alone: its meaning, or nothing when `txn_valid` = 0 (30_encoding.md R46). -/
def runTransaction (txn : Option CommandWord) (s : State) : Host.Outcome State Fault Refusal :=
  match txn with
  | none => .next s.undriven
  | some cw => exec (decodeCommand cw) s

/-- One clock edge (R8). Reset wins and discards the transaction (R98); a run that has had no reset is refused (R100);
otherwise the transaction and the sequencer's step, both computed from the state before the edge, take effect together
(R77, R94). -/
def clockEdge (c : PortCycle) (s : State) : Host.Outcome State Fault Refusal :=
  if c.rst then .next (resetEdge s)
  else if s.resetDone then withSequencer s.engine (runTransaction c.txn s)
  else .refused .noResetSincePowerOn

/-- Present a command word in the coming cycle, before what is already waiting (notes/assumptions/11.md). It is no reset
edge: a machine that has had none still refuses the cycle (70_reset_and_hazards.md R100). -/
def State.present (s : State) (cw : CommandWord) : State := { s with inputs := PortCycle.command cw :: s.inputs }

end Sys2Proof.Machine
end

