-- ==== Sys2Proof/Machine/Step.lean ====
section
/-! DEFINITION. The step: the clock edge of the cycle the outside presents next. -/

namespace Sys2Proof.Machine

/-- One model step is one clock edge (00_scope.md R8), taken with the next cycle of `inputs`. -/
def step (s : State) : Host.Outcome State Fault Refusal := clockEdge s.nextCycle s.popCycle

/-- `s` with the table's word of `nbits` bits presented at the port in the coming cycle (notes/assumptions/11.md). -/
def State.withFetchWord (s : State) (nbits w : Nat) : State := s.present (BitVec.ofNat 38 (w % 2 ^ nbits))

end Sys2Proof.Machine
end

