-- ==== Sys2Proof/Machine/Bytes.lean ====
section
/-! DEFINITION. The byte order of blocks and digests (20_memory.md R29, R30). The engine itself swaps nothing: the host
presents the words already assembled. -/

namespace Sys2Proof.Machine

/-- `BLOCK_W[i] = {B[4i], B[4i+1], B[4i+2], B[4i+3]}` (R29). -/
def blockOfBytes (b : Vector Byte 64) : Vector Word 16 :=
  Vector.ofFn fun i : Fin 16 => b[4 * i.val] ++ b[4 * i.val + 1] ++ b[4 * i.val + 2] ++ b[4 * i.val + 3]

/-- `D[4j+k] = DIGEST[j][31-8k : 24-8k]` (R30). -/
def bytesOfDigest (d : Vector Word 8) : Vector Byte 32 :=
  Vector.ofFn fun n : Fin 32 => (d[n.val / 4]).extractLsb' (24 - 8 * (n.val % 4)) 8

end Sys2Proof.Machine
end

