-- ==== Sys2Proof/Machine/Boundary.lean ====
section
/-! DEFINITION. The model's boundary: what a host may ask for and what is refused there, by name, because the port
cannot express it (20_memory.md R31, R36; 93_implementation_defined.md). -/

namespace Sys2Proof.Machine

/-- Why a request cannot be presented to the engine. -/
inductive BoundaryRefusal where
  /-- The access does not start at a whole word: no address bits below the word exist (R31). Raised by
  `RawAccess.toCommand`. Safe. -/
  | misaligned
  /-- The access is narrower or wider than one 32-bit word: no byte enables exist (R31). Raised by
  `RawAccess.toCommand`. Safe. -/
  | notOneWord
  /-- The word index has more than 5 bits (R28). Raised by `RawAccess.toCommand`. Safe. -/
  | outsideWindow
  /-- The write data have more than 32 bits (R27). Raised by `RawAccess.toCommand`. Safe. -/
  | dataTooWide
  /-- A block is not 64 bytes (R36). Raised by `blockOfByteList`. Safe. -/
  | notSixtyFourBytes
  deriving DecidableEq, Repr

/-- An access as some host might ask for it, in plain numbers. -/
structure RawAccess where
  we : Bool
  idx : Nat
  /-- Where the access starts inside its word, in bytes. -/
  byteOffset : Nat
  /-- How many bytes it moves. -/
  bytes : Nat
  wdata : Nat
  deriving DecidableEq, Repr

/-- The command word of an access, or the refusal of one that is no `(we, idx, wdata)` triple (R31). -/
def RawAccess.toCommand (a : RawAccess) : Except BoundaryRefusal CommandWord :=
  if a.byteOffset ≠ 0 then .error .misaligned
  else if a.bytes ≠ 4 then .error .notOneWord
  else if 32 ≤ a.idx then .error .outsideWindow
  else if 2 ^ 32 ≤ a.wdata then .error .dataTooWide
  else .ok (packCommand a.we (BitVec.ofNat 5 a.idx) (BitVec.ofNat 32 a.wdata))

/-- The block of a byte string, refused unless it is exactly 64 bytes: never truncated, never padded (R36; the test V7
of 95_test_vectors.md). -/
def blockOfByteList (l : List Byte) : Except BoundaryRefusal (Vector Word 16) :=
  if h : l.length = 64 then .ok (blockOfBytes ⟨l.toArray, by simpa using h⟩) else .error .notSixtyFourBytes

end Sys2Proof.Machine
end

