-- ==== Sys2Proof/Machine/HostProgram.lean ====
section
/-! DEFINITION. The host's side: the assembler statements and pseudo-instructions of 30_encoding.md R49 and R50, and a
host that presents one statement a cycle, or lets cycles pass between them (R49). The waiting loops are host-side control flow and cost no engine state. -/

namespace Sys2Proof.Machine

/-- A statement of R49: at most one transaction, one cycle. -/
inductive AsmStatement where
  | wrBlock (i : BitVec 4) (imm : Word)
  | rdBlock (i : BitVec 4)
  | rdDigest (j : BitVec 3)
  | wrDigest (j : BitVec 3) (imm : Word)
  | wrCtrl (imm : Word)
  | rdCtrl
  | rdStatus
  | wrStatus (imm : Word)
  /-- `RD RSVD<n>`, n = 26..31. -/
  | rdRsvd (n : WindowIndex)
  /-- `WR RSVD<n>, <imm32>`, n = 26..31. -/
  | wrRsvd (n : WindowIndex) (imm : Word)
  /-- `RD [<idx>]`. -/
  | rd (idx : WindowIndex)
  /-- `WR [<idx>], <imm32>`. -/
  | wr (idx : WindowIndex) (imm : Word)
  /-- `NOP`: a cycle with `txn_valid` = 0. -/
  | nop
  deriving DecidableEq, Repr

/-- The operand ranges of R49: n = 26..31 in the RSVD forms. -/
def AsmStatement.wellFormed : AsmStatement → Bool
  | .wrBlock _ _ => true
  | .rdBlock _ => true
  | .rdDigest _ => true
  | .wrDigest _ _ => true
  | .wrCtrl _ => true
  | .rdCtrl => true
  | .rdStatus => true
  | .wrStatus _ => true
  | .rdRsvd n => isReservedA n || isReservedB n
  | .wrRsvd n _ => isReservedA n || isReservedB n
  | .rd _ => true
  | .wr _ _ => true
  | .nop => true

/-- The command word of a statement, by the arithmetic of R49's table; `none` for NOP. -/
def AsmStatement.assemble : AsmStatement → Option CommandWord
  | .wrBlock i imm => some (BitVec.ofNat 38 (0x2000000000 + i.toNat * 2 ^ 32 + imm.toNat))
  | .rdBlock i => some (BitVec.ofNat 38 (i.toNat * 2 ^ 32))
  | .rdDigest j => some (BitVec.ofNat 38 ((16 + j.toNat) * 2 ^ 32))
  | .wrDigest j imm => some (BitVec.ofNat 38 (0x2000000000 + (16 + j.toNat) * 2 ^ 32 + imm.toNat))
  | .wrCtrl imm => some (BitVec.ofNat 38 (0x3800000000 + imm.toNat))
  | .rdCtrl => some 0x1800000000#38
  | .rdStatus => some 0x1900000000#38
  | .wrStatus imm => some (BitVec.ofNat 38 (0x3900000000 + imm.toNat))
  | .rdRsvd n => some (BitVec.ofNat 38 (n.toNat * 2 ^ 32))
  | .wrRsvd n imm => some (BitVec.ofNat 38 (0x2000000000 + n.toNat * 2 ^ 32 + imm.toNat))
  | .rd idx => some (packCommand false idx 0#32)
  | .wr idx imm => some (packCommand true idx imm)
  | .nop => none

/-- One element of a host program: a statement, or one of the two waiting loops of R50, which repeat `RD STATUS`. -/
inductive HostOp where
  | stmt (a : AsmStatement)
  /-- `L: RD STATUS` ; repeat from L while `rdata[1]` = 0. -/
  | waitDone
  /-- `L: RD STATUS` ; repeat from L while `rdata[0]` = 1. -/
  | waitIdle
  deriving DecidableEq, Repr

/-- A pseudo-instruction of R50. -/
inductive Pseudo where
  | start
  | loadBlk (w : Vector Word 16)
  | loadBytes (b : Vector Byte 64)
  | waitDone
  | waitIdle
  | rdDigest
  | nop (n : Nat)
  | compress (w : Vector Word 16)
  deriving DecidableEq, Repr

/-- `LOADBLK`: 16 WR_BLOCK statements in index order (R50). -/
def loadBlock (w : Vector Word 16) : List HostOp :=
  List.ofFn fun k : Fin 16 => .stmt (.wrBlock (BitVec.ofFin k) w[k])

/-- `RDDIGEST`: 8 RD_DIGEST statements in index order (R50). -/
def readDigest : List HostOp := List.ofFn fun k : Fin 8 => .stmt (.rdDigest (BitVec.ofFin k))

/-- The expansion of a pseudo-instruction (R50). -/
def Pseudo.expand : Pseudo → List HostOp
  | .start => [.stmt (.wrCtrl 1#32)]
  | .loadBlk w => loadBlock w
  | .loadBytes b => loadBlock (blockOfBytes b)
  | .waitDone => [.waitDone]
  | .waitIdle => [.waitIdle]
  | .rdDigest => readDigest
  | .nop n => List.replicate n (.stmt .nop)
  | .compress w => .waitIdle :: (loadBlock w ++ [.stmt (.wrCtrl 1#32), .waitDone] ++ readDigest)

/-- The cycle an element presents. -/
def HostOp.cycle : HostOp → PortCycle
  | .stmt a => ⟨false, a.assemble⟩
  | .waitDone => ⟨false, AsmStatement.rdStatus.assemble⟩
  | .waitIdle => ⟨false, AsmStatement.rdStatus.assemble⟩

/-- The element is presented again, given the read data of its cycle (R50). -/
def HostOp.repeats (rdata : Word) : HostOp → Bool
  | .stmt _ => false
  | .waitDone => !rdata.getLsbD 1
  | .waitIdle => rdata.getLsbD 0

/-- The host and the machine it drives: what is left of the program, and the machine. -/
structure HostRun where
  program : List HostOp
  machine : State
  deriving DecidableEq, Repr

/-- One cycle of a host: it presents the first element of its program, or nothing when the program is over. -/
def hostCycle (r : HostRun) : Host.Outcome HostRun Fault Refusal :=
  match clockEdge (r.program.head?.elim PortCycle.idle HostOp.cycle) r.machine with
  | .fault f => .fault f
  | .refused x => .refused x
  | .next t =>
    .next ⟨if r.program.head?.any (HostOp.repeats t.rdata) then r.program else r.program.tail, t⟩

/-- `n` cycles of a host. -/
def hostCycles : Nat → HostRun → Host.Outcome HostRun Fault Refusal
  | 0, r => .next r
  | n + 1, r =>
    match hostCycle r with
    | .fault f => .fault f
    | .refused x => .refused x
    | .next r' => hostCycles n r'

/-- A cycle a host lets pass between two statements (R49). -/
def hostPause (r : HostRun) : Host.Outcome HostRun Fault Refusal :=
  match clockEdge PortCycle.idle r.machine with
  | .fault f => .fault f
  | .refused x => .refused x
  | .next t => .next ⟨r.program, t⟩

/-- A host with gaps: at each cycle of the list it presents its next statement (`true`) or lets the cycle pass (R49). -/
def hostSchedule : List Bool → HostRun → Host.Outcome HostRun Fault Refusal
  | [], r => .next r
  | p :: ps, r =>
    match (if p then hostCycle r else hostPause r) with
    | .fault f => .fault f
    | .refused x => .refused x
    | .next r' => hostSchedule ps r'

end Sys2Proof.Machine
end

