-- ==== Sys2Proof/Machine/Platform.lean ====
section
/-! DEFINITION. Several engine copies on one clock (60_exceptions.md R96). Each copy is a whole `State`, with its own
port; the ROMs are shared constants. How many there are is OPEN (92_eei_decisions.md D17; notes/assumptions/12.md). -/

namespace Sys2Proof.Machine

/-- A platform: its engine copies in some order. -/
abbrev Platform := List State

/-- The platform has `NUM_ENGINES` copies. -/
def Platform.wf (p : Platform) : Prop := p.length = Config.numEngines

/-- Every copy right after reset. -/
def Platform.reset : Platform := List.replicate Config.numEngines State.reset

/-- One edge of the common clock: every copy takes its own step. When a copy has had no reset edge, its refusal
(70_reset_and_hazards.md R100) refuses the platform's edge and no copy steps: R96 does not say what the others do.
DESIGN CHOICE, safe (notes/assumptions/17.md). -/
def Platform.step : Platform → Host.Outcome Platform Fault Refusal
  | [] => .next []
  | s :: rest =>
    match Sys2Proof.Machine.step s with
    | .fault f => .fault f
    | .refused r => .refused r
    | .next t =>
      match Platform.step rest with
      | .fault f => .fault f
      | .refused r => .refused r
      | .next ts => .next (t :: ts)

end Sys2Proof.Machine
end

