-- ==== Sys2Proof/Machine/Reference.lean ====
section
/-! DEFINITION. The reference form of the algorithm, over the whole 64-word schedule (41_datapath_functions.md R73, R76).
The machine never calls it: the claims compare the machine with it. -/

namespace Sys2Proof.Machine

/-- One more word of the schedule: with the first `n + 16` words in `ws`, the word `W[n+16]` (R73). -/
def nextScheduleWord (n : Nat) (ws : List Word) : Word :=
  scheduleWord (ws.getD (n + 14) 0#32) (ws.getD (n + 9) 0#32) (ws.getD (n + 1) 0#32) (ws.getD n 0#32)

/-- The first `n + 16` words of the schedule of a block (R73). -/
def scheduleList (block : Vector Word 16) : Nat → List Word
  | 0 => block.toList
  | n + 1 => scheduleList block n ++ [nextScheduleWord n (scheduleList block n)]

/-- `W[i]`, for i = 0..63 (R73). -/
def scheduleAt (block : Vector Word 16) (i : Nat) : Word := (scheduleList block 48).getD i 0#32

/-- The working values after the first `n` rounds (R76, step 4). -/
def workAfter (block : Vector Word 16) : Nat → Working
  | 0 => initialWork
  | n + 1 => roundFn (kAt (BitVec.ofNat 6 n)) (workAfter block n) (scheduleAt block n)

/-- `compress(W[0..15])` (R76). -/
def compress (block : Vector Word 16) : Vector Word 8 := finalize (workAfter block 64)

/-- `digest = compress(block)` on the 64 bytes of a block and the 32 bytes of a digest (00_scope.md R1). -/
def compressBytes (b : Vector Byte 64) : Vector Byte 32 := bytesOfDigest (compress (blockOfBytes b))

end Sys2Proof.Machine
end

