-- ==== Sys2Proof/Safety.lean ====
section
/-! DEFINITION. The terms the claims use: runs of the machine, cycles without reset, and the invariants that rule out
engine states no run from reset reaches. -/

namespace Sys2Proof.Machine

/-- `n` steps, stopping at the first fault or refusal. -/
def runFor : Nat → State → Host.Outcome State Fault Refusal
  | 0, s => .next s
  | n + 1, s =>
    match step s with
    | .next t => runFor n t
    | .fault f => .fault f
    | .refused r => .refused r

/-- No cycle of the list asserts `rst`. -/
def NoReset (cs : List PortCycle) : Prop := ∀ c ∈ cs, c.rst = false

/-- A cycle that presents a START: WR_CTRL with `WDATA[0]` = 1, whatever the reserved bits hold (R55). -/
def PortCycle.IsStart (c : PortCycle) : Prop :=
  c.rst = false ∧ ∃ cw d, c.txn = some cw ∧ decodeCommand cw = .wrCtrl d ∧ startBit d = true

/-- The coming cycle is a START that the engine will accept (R55). -/
def State.StartsNow (s : State) : Prop :=
  s.resetDone = true ∧ s.engine.fsm = .idle ∧ s.nextCycle.IsStart

/-- The control registers agree: RND is 0 outside ROUND (R18), DONE is 0 while busy (R13, R19). -/
def Engine.ControlOk (e : Engine) : Prop :=
  (e.fsm ≠ .round → e.rnd = 0#6) ∧ (e.busy = true → e.done = false)

/-- The engine in ROUND stands where the reference stands after `rnd` rounds on `block`, with the schedule words the
remaining rounds need in its window (42_sequencer.md R84). -/
def Engine.RoundOf (e : Engine) (block : Vector Word 16) : Prop :=
  e.work = workAfter block e.rnd.toNat ∧
  ∀ (k : Nat) (h : k < 16), e.rnd.toNat + k ≤ 63 → e.sw[k] = scheduleAt block (e.rnd.toNat + k)

/-- The datapath agrees with the reference: a computation in progress is the reference's on some block, and a finished
one left the reference's digest (R84, R85, R1). -/
def Engine.DatapathOk (e : Engine) : Prop :=
  match e.fsm with
  | .idle => e.done = true → ∃ block, e.digest = compress block
  | .round => ∃ block, e.RoundOf block
  | .final => ∃ block, e.work = workAfter block 64

/-- Two engines agree on everything but the block input buffer. -/
def Engine.SameButBlock (x y : Engine) : Prop :=
  x.digest = y.digest ∧ x.done = y.done ∧ x.fsm = y.fsm ∧ x.rnd = y.rnd ∧ x.work = y.work ∧ x.sw = y.sw

end Sys2Proof.Machine
end

