-- ==== Sys2Proof/Certificates/Slice0/Obligations.lean ====
section
/-! DEFINITION. The statements for the provers: what the spec's rules say of the encoding, of each transaction, of each
edge, of a whole computation, and of the datapath. Each docstring names the rule it formalises. -/

open Sys2Proof Sys2Proof.Machine

/-! ### Encoding -/

/-- R41: the three fields of a command word, its value as a number, and WDATA ignored by every read. -/
def Obligations.CommandWordFields : Prop :=
  (∀ (we : Bool) (idx : WindowIndex) (d : Word),
    cmdWe (packCommand we idx d) = we ∧ cmdIdx (packCommand we idx d) = idx ∧ cmdData (packCommand we idx d) = d ∧
    (packCommand we idx d).toNat = we.toNat * 2 ^ 37 + idx.toNat * 2 ^ 32 + d.toNat) ∧
  (∀ cw : CommandWord, packCommand (cmdWe cw) (cmdIdx cw) (cmdData cw) = cw) ∧
  (∀ (idx : WindowIndex) (d d' : Word) (s : State),
    exec (decodeCommand (packCommand false idx d)) s = exec (decodeCommand (packCommand false idx d')) s)

/-- Decoding the word of a well-formed transaction gives it back, every operand at every value (R41 to R43). -/
def Obligations.DecodeUndoesEncode : Prop :=
  ∀ i : Instr, i.wellFormed = true →
    decodeCommand (encode i) = i ∧ decode (encode i).toNat = .ok i ∧ decodeTableWord 40 (encode i).toNat = some i

/-- Every command word decodes to a well-formed transaction, whose word it is: no bit is dropped (R42, R44). -/
def Obligations.EncodeUndoesDecode : Prop :=
  ∀ cw : CommandWord, (decodeCommand cw).wellFormed = true ∧ encode (decodeCommand cw) = cw

/-- R42: every command word matches exactly one row of the opcode map, the row of the transaction it decodes to, and
no row's mask holds a WDATA bit. -/
def Obligations.EveryWordSelectsOneRow : Prop :=
  (∀ cw : CommandWord, (decodeCommand cw).row ∈ opcodeTable ∧ (decodeCommand cw).row.matches cw = true ∧
    ∀ r ∈ opcodeTable, r.matches cw = true → r = (decodeCommand cw).row) ∧
  (∀ r ∈ opcodeTable, r.mask &&& 0x00FFFFFFFF#38 = 0#38)

/-- A number is decoded exactly when it fits in 38 bits, and is rejected by name otherwise (R41, R44, R48). -/
def Obligations.NumbersOf38BitsDecode : Prop :=
  ∀ n : Nat, (n < 2 ^ 38 → decode n = .ok (decodeCommand (BitVec.ofNat 38 n))) ∧
    (2 ^ 38 ≤ n → decode n = .error .widerThan38Bits)

/-- Command words the spec writes out (40_host_commands.md, 95_test_vectors.md section 2.9) decode to the transactions
it writes them for. -/
def Obligations.WrittenOutWordsDecode : Prop :=
  decode 0x2061626380 = .ok (.wrBlock 0 0x61626380) ∧ decode 0x0F00000000 = .ok (.rdBlock 15 0) ∧
  decode 0x1700000000 = .ok (.rdDigest 7 0) ∧ decode 0x30FFFFFFFF = .ok (.wrDigest 0 0xFFFFFFFF) ∧
  decode 0x3800000001 = .ok (.wrCtrl 1) ∧ decode 0x1800000000 = .ok (.rdCtrl 0) ∧
  decode 0x1900000000 = .ok (.rdStatus 0) ∧ decode 0x3900000000 = .ok (.wrStatus 0) ∧
  decode 0x1A00000000 = .ok (.rdRsvdA 26 0) ∧ decode 0x1F00000000 = .ok (.rdRsvdB 31 0) ∧
  decode 0x3A12345678 = .ok (.wrRsvdA 26 0x12345678) ∧ decode 0x3FFFFFFFFF = .ok (.wrRsvdB 31 0xFFFFFFFF)

/-! ### The transactions -/

/-- R51, WR_BLOCK: operands and encoding; the write is accepted in every state, stores the word, changes no other
register and no flag; a second write keeps the last value; the new value is what an accepted START would capture. -/
def Obligations.WrBlockStoresTheWord : Prop :=
  (∀ cw : CommandWord, cw &&& 0x3000000000#38 = 0x2000000000#38 →
    decodeCommand cw = .wrBlock ((cmdIdx cw).extractLsb' 0 4) (cmdData cw)) ∧
  ∀ (i : BitVec 4) (v : Word) (s : State), ∃ t, exec (.wrBlock i v) s = .next t ∧
    t.engine.blockWord i = v ∧ (∀ k : BitVec 4, k ≠ i → t.engine.blockWord k = s.engine.blockWord k) ∧
    t.engine.SameButBlock s.engine ∧ t.inputs = s.inputs ∧ t.resetDone = s.resetDone ∧
    t.engine.start.sw[i.toNat] = v ∧
    ∀ v' : Word, ∃ t', exec (.wrBlock i v') t = .next t' ∧ t'.engine.blockWord i = v'

/-- R52, RD_BLOCK: operands and encoding; it returns the block word and changes nothing else, in every state; right
after reset every block word reads 0. -/
def Obligations.RdBlockReturnsTheWord : Prop :=
  (∀ cw : CommandWord, cw &&& 0x3000000000#38 = 0x0000000000#38 →
    decodeCommand cw = .rdBlock ((cmdIdx cw).extractLsb' 0 4) (cmdData cw)) ∧
  (∀ (i : BitVec 4) (d : Word) (s : State),
    exec (.rdBlock i d) s = .next { s with rdata := s.engine.blockW[i.toNat] }) ∧
  (∀ (i : BitVec 4) (d : Word), exec (.rdBlock i d) State.reset = .next { State.reset with rdata := 0#32 })

/-- R53, RD_DIGEST: operands and encoding; it returns the digest word as it stood before the edge, in FINAL too, and
changes nothing else. -/
def Obligations.RdDigestReturnsTheWord : Prop :=
  (∀ cw : CommandWord, cw &&& 0x3800000000#38 = 0x1000000000#38 →
    decodeCommand cw = .rdDigest ((cmdIdx cw).extractLsb' 0 3) (cmdData cw)) ∧
  (∀ (j : BitVec 3) (d : Word) (s : State),
    exec (.rdDigest j d) s = .next { s with rdata := s.engine.digest[j.toNat] }) ∧
  (∀ (s : State) (cw : CommandWord) (rest : List PortCycle) (j : BitVec 3) (d : Word), s.resetDone = true →
    s.inputs = PortCycle.command cw :: rest → decodeCommand cw = .rdDigest j d →
    ∃ t, step s = .next t ∧ t.rdata = s.engine.digest[j.toNat])

/-- R54, WR_DIGEST: operands and encoding; silently dropped, whatever the data. -/
def Obligations.WrDigestHasNoEffect : Prop :=
  (∀ cw : CommandWord, cw &&& 0x3800000000#38 = 0x3000000000#38 →
    decodeCommand cw = .wrDigest ((cmdIdx cw).extractLsb' 0 3) (cmdData cw)) ∧
  ∀ (j : BitVec 3) (d : Word) (s : State), ∃ t, exec (.wrDigest j d) s = .next t ∧
    t.engine = s.engine ∧ t.inputs = s.inputs ∧ t.resetDone = s.resetDone

/-- R55, WR_CTRL: operands and encoding; with bit 0 set in IDLE the START step, with DONE at 0 and BUSY at 1 after it and
the digest kept; with bit 0 clear, or in ROUND or FINAL, nothing; the reserved bits make no difference. -/
def Obligations.WrCtrlStartsOnlyAnIdleEngine : Prop :=
  (∀ cw : CommandWord, cw &&& 0x3F00000000#38 = 0x3800000000#38 → decodeCommand cw = .wrCtrl (cmdData cw)) ∧
  (∀ (d : Word) (s : State), d.getLsbD 0 = true → s.engine.fsm = .idle →
    ∃ t, exec (.wrCtrl d) s = .next t ∧
      t.engine = { s.engine with work := initialWork, sw := s.engine.blockW, rnd := 0#6, fsm := .round, done := false } ∧
      t.engine.busy = true ∧ t.inputs = s.inputs ∧ t.resetDone = s.resetDone) ∧
  (∀ (d : Word) (s : State), (d.getLsbD 0 = false ∨ s.engine.fsm ≠ .idle) →
    ∃ t, exec (.wrCtrl d) s = .next t ∧ t.engine = s.engine ∧ t.inputs = s.inputs ∧ t.resetDone = s.resetDone) ∧
  (∀ (d d' : Word) (s : State), d.getLsbD 0 = d'.getLsbD 0 → exec (.wrCtrl d) s = exec (.wrCtrl d') s)

/-- R56, RD_CTRL: operands and encoding; it returns 0 in every state and changes nothing else. -/
def Obligations.RdCtrlReturnsZero : Prop :=
  (∀ cw : CommandWord, cw &&& 0x3F00000000#38 = 0x1800000000#38 → decodeCommand cw = .rdCtrl (cmdData cw)) ∧
  ∀ (d : Word) (s : State), exec (.rdCtrl d) s = .next { s with rdata := 0#32 }

/-- R57, RD_STATUS: operands and encoding; bit 1 is DONE, bit 0 is `FSM != IDLE`, the rest 0; nothing else changes, DONE
neither. Right after reset it returns 0. -/
def Obligations.RdStatusReturnsDoneAndBusy : Prop :=
  (∀ cw : CommandWord, cw &&& 0x3F00000000#38 = 0x1900000000#38 → decodeCommand cw = .rdStatus (cmdData cw)) ∧
  (∀ (d : Word) (s : State), ∃ v : Word, exec (.rdStatus d) s = .next { s with rdata := v } ∧
    v.getLsbD 1 = s.engine.done ∧ (v.getLsbD 0 = true ↔ s.engine.fsm ≠ .idle) ∧ ∀ k, 2 ≤ k → v.getLsbD k = false) ∧
  (∀ d : Word, exec (.rdStatus d) State.reset = .next { State.reset with rdata := 0#32 })

/-- R58, WR_STATUS: operands and encoding; silently dropped: DONE and BUSY keep their values. -/
def Obligations.WrStatusHasNoEffect : Prop :=
  (∀ cw : CommandWord, cw &&& 0x3F00000000#38 = 0x3900000000#38 → decodeCommand cw = .wrStatus (cmdData cw)) ∧
  ∀ (d : Word) (s : State), ∃ t, exec (.wrStatus d) s = .next t ∧
    t.engine = s.engine ∧ t.inputs = s.inputs ∧ t.resetDone = s.resetDone

/-- R59, RD_RSVD: both rows' operands and encodings; it returns 0 and changes nothing else. -/
def Obligations.RdRsvdReturnsZero : Prop :=
  (∀ cw : CommandWord, cw &&& 0x3E00000000#38 = 0x1A00000000#38 →
    decodeCommand cw = .rdRsvdA (cmdIdx cw) (cmdData cw) ∧ (cmdIdx cw = 26#5 ∨ cmdIdx cw = 27#5)) ∧
  (∀ cw : CommandWord, cw &&& 0x3C00000000#38 = 0x1C00000000#38 →
    decodeCommand cw = .rdRsvdB (cmdIdx cw) (cmdData cw) ∧ 28 ≤ (cmdIdx cw).toNat) ∧
  ∀ (idx : WindowIndex) (d : Word) (s : State),
    exec (.rdRsvdA idx d) s = .next { s with rdata := 0#32 } ∧ exec (.rdRsvdB idx d) s = .next { s with rdata := 0#32 }

/-- R60, WR_RSVD: both rows' operands and encodings; silently dropped, and a later read of the index returns 0. -/
def Obligations.WrRsvdHasNoEffect : Prop :=
  (∀ cw : CommandWord, cw &&& 0x3E00000000#38 = 0x3A00000000#38 →
    decodeCommand cw = .wrRsvdA (cmdIdx cw) (cmdData cw) ∧ (cmdIdx cw = 26#5 ∨ cmdIdx cw = 27#5)) ∧
  (∀ cw : CommandWord, cw &&& 0x3C00000000#38 = 0x3C00000000#38 →
    decodeCommand cw = .wrRsvdB (cmdIdx cw) (cmdData cw) ∧ 28 ≤ (cmdIdx cw).toNat) ∧
  ∀ (idx : WindowIndex) (d : Word) (s : State),
    (∃ t, exec (.wrRsvdA idx d) s = .next t ∧ t.engine = s.engine ∧ t.inputs = s.inputs ∧ t.resetDone = s.resetDone ∧
      ∀ d', exec (.rdRsvdA idx d') t = .next { t with rdata := 0#32 }) ∧
    (∃ t, exec (.wrRsvdB idx d) s = .next t ∧ t.engine = s.engine ∧ t.inputs = s.inputs ∧ t.resetDone = s.resetDone ∧
      ∀ d', exec (.rdRsvdB idx d') t = .next { t with rdata := 0#32 })

/-! ### Rules over all transactions -/

/-- R90 and R44: no word, no state and no run faults, and an engine that has been reset never stops: every transaction
and every step answers a next state. -/
def Obligations.NothingFaults : Prop :=
  IsEmpty Fault ∧
  (∀ (cw : CommandWord) (s : State), ∃ t, exec (decodeCommand cw) s = .next t) ∧
  (∀ s : State, s.resetDone = true → ∃ t, step s = .next t ∧ t.resetDone = true) ∧
  (∀ (n : Nat) (s : State), s.resetDone = true → ∃ t, runFor n s = .next t)

/-- R32 and R28: a read returns, in its own cycle, the word the window holds at its index before the edge, for every
index, and changes no state. -/
def Obligations.ReadsReturnTheWindowBeforeTheEdge : Prop :=
  (∀ (i : Instr) (s : State), i.wellFormed = true → i.isRead = true →
    exec i s = .next { s with rdata := windowRead s.engine i.idx }) ∧
  (∀ (s : State) (i : Instr) (rest : List PortCycle), s.resetDone = true → i.wellFormed = true → i.isRead = true →
    s.inputs = PortCycle.command (encode i) :: rest →
    ∃ t, step s = .next t ∧ t.rdata = windowRead s.engine i.idx ∧ t.draws = s.draws)

/-- R93: the only transactions that change the engine are WR_BLOCK and a START in IDLE; every other write is dropped, and
a read changes nothing (R34). -/
def Obligations.OnlyBlockWritesAndStartsChangeTheEngine : Prop :=
  ∀ (i : Instr) (s t : State), exec i s = .next t →
    (t.inputs = s.inputs ∧ t.resetDone = s.resetDone) ∧
    (t.engine = s.engine ∨ (∃ k v, i = .wrBlock k v) ∨ ∃ d, i = .wrCtrl d ∧ d.getLsbD 0 = true ∧ s.engine.fsm = .idle)

/-! ### One edge -/

/-- R77: when the coming cycle presents the word of a well-formed transaction, a step is the meaning of that transaction
on the state with the cycle taken off, with the sequencer's step, computed from the engine before the edge, laid over
its engine. -/
def Obligations.StepRunsTheDecodedTransaction : Prop :=
  ∀ (s : State) (i : Instr) (rest : List PortCycle), s.resetDone = true → i.wellFormed = true →
    s.inputs = PortCycle.command (encode i) :: rest →
    ∃ t, exec i { s with inputs := rest } = .next t ∧
      step s = .next { t with engine := sequencerStep s.engine t.engine }

/-- A step with a table word presented by `withFetchWord` runs that word, the sequencer's step laid over its effect, on a
machine that has been reset, and is refused on one that has not (R100). The interface is the model's own (log entry 11);
the word must be a command word. -/
def Obligations.StepRunsTheFetchedWord : Prop :=
  ∀ (s : State) (w : Nat) (i : Instr), w < 2 ^ 38 → decodeTableWord 40 w = some i →
    (s.resetDone = true → ∃ t, exec i s = .next t ∧
      step (s.withFetchWord 40 w) = .next { t with engine := sequencerStep s.engine t.engine }) ∧
    (s.resetDone = false → step (s.withFetchWord 40 w) = .refused .noResetSincePowerOn)

/-- R46: a cycle without a transaction changes no register-window word of its own, and the sequencer still takes its
step: the engine after it is the sequencer's alone, and in IDLE it is unchanged. -/
def Obligations.IdleCycleStepsTheSequencerOnly : Prop :=
  ∀ (s : State), s.resetDone = true → s.nextCycle = ⟨false, none⟩ →
    ∃ t, step s = .next t ∧ t.engine = sequencerStep s.engine s.engine ∧
      (∀ k : BitVec 4, t.engine.blockWord k = s.engine.blockWord k) ∧
      (s.engine.fsm = .idle → t.engine = s.engine)

/-- R78: in IDLE, with a cycle that is no START, the sequencer writes nothing: `a..h`, SW, RND, DIGEST, DONE and FSM
keep their values. -/
def Obligations.IdleEngineKeepsItsResult : Prop :=
  ∀ (s : State), s.resetDone = true → s.engine.fsm = .idle → s.nextCycle.rst = false → ¬ s.nextCycle.IsStart →
    ∃ t, step s = .next t ∧ t.engine.SameButBlock s.engine

/-- R79: the edge of an accepted START loads `a..h` from the ROM and SW from the block, clears RND and DONE, enters
ROUND, and writes neither DIGEST nor BLOCK_W. -/
def Obligations.AcceptedStartLoadsTheEngine : Prop :=
  ∀ (s : State), s.StartsNow → ∃ t, step s = .next t ∧
    t.engine.work = ⟨romH[0], romH[1], romH[2], romH[3], romH[4], romH[5], romH[6], romH[7]⟩ ∧
    (∀ (k : Nat) (h : k < 16), t.engine.sw[k] = s.engine.blockW[k]) ∧
    t.engine.rnd = 0#6 ∧ t.engine.fsm = .round ∧ t.engine.done = false ∧
    t.engine.digest = s.engine.digest ∧ t.engine.blockW = s.engine.blockW

/-- R80, R81, R82: the ROUND edge, whatever the cycle's transaction: the round datapath, the expander, the counter and
the exit, all from the values before the edge; DIGEST and DONE keep theirs. -/
def Obligations.RoundEdgeWritesOneRound : Prop :=
  ∀ (s : State), s.resetDone = true → s.engine.fsm = .round → s.nextCycle.rst = false →
    ∃ t, step s = .next t ∧
    (let w := s.engine.work
     let t1 := w.h + capSigma1 w.e + choose w.e w.f w.g + kAt s.engine.rnd + s.engine.sw[0]
     let t2 := capSigma0 w.a + majority w.a w.b w.c
     t.engine.work = ⟨t1 + t2, w.a, w.b, w.c, w.d + t1, w.e, w.f, w.g⟩) ∧
    (∀ (k : Nat) (h : k < 15), t.engine.sw[k] = s.engine.sw[k + 1]) ∧
    t.engine.sw[15] = smallSigma1 s.engine.sw[14] + s.engine.sw[9] + smallSigma0 s.engine.sw[1] + s.engine.sw[0] ∧
    t.engine.rnd.toNat = (s.engine.rnd.toNat + 1) % 64 ∧
    t.engine.fsm = (if s.engine.rnd.toNat = 63 then .final else .round) ∧
    t.engine.digest = s.engine.digest ∧ t.engine.done = s.engine.done

/-- R83: the FINAL edge, whatever the cycle's transaction: all eight digest words, DONE and IDLE; `a..h`, SW and RND are
not written. -/
def Obligations.FinalEdgeWritesTheDigest : Prop :=
  ∀ (s : State), s.resetDone = true → s.engine.fsm = .final → s.nextCycle.rst = false →
    ∃ t, step s = .next t ∧
    t.engine.digest[0] = romH[0] + s.engine.work.a ∧ t.engine.digest[1] = romH[1] + s.engine.work.b ∧
    t.engine.digest[2] = romH[2] + s.engine.work.c ∧ t.engine.digest[3] = romH[3] + s.engine.work.d ∧
    t.engine.digest[4] = romH[4] + s.engine.work.e ∧ t.engine.digest[5] = romH[5] + s.engine.work.f ∧
    t.engine.digest[6] = romH[6] + s.engine.work.g ∧ t.engine.digest[7] = romH[7] + s.engine.work.h ∧
    t.engine.done = true ∧ t.engine.fsm = .idle ∧
    t.engine.work = s.engine.work ∧ t.engine.sw = s.engine.sw ∧ t.engine.rnd = s.engine.rnd

/-- R89: the four transitions of the sequencer and the reset, for every step. -/
def Obligations.SequencerTransitions : Prop :=
  ∀ (s t : State), step s = .next t →
    (s.nextCycle.rst = true → t.engine.fsm = .idle) ∧
    (s.nextCycle.rst = false →
      (s.engine.fsm = .idle → (s.StartsNow → t.engine.fsm = .round) ∧ (¬ s.StartsNow → t.engine.fsm = .idle)) ∧
      (s.engine.fsm = .round → t.engine.fsm = if s.engine.rnd.toNat < 63 then .round else .final) ∧
      (s.engine.fsm = .final → t.engine.fsm = .idle))

/-- R19, and R11's one writer: without reset, DONE is set by the FINAL edge and cleared by an accepted START and changes
at no other edge, and DIGEST changes at the FINAL edge only. -/
def Obligations.DoneAndDigestChangeOnlyWhereTheyMay : Prop :=
  ∀ (s t : State), step s = .next t →
    (s.nextCycle.rst = true → t.engine.done = false) ∧
    (s.nextCycle.rst = false →
      (s.engine.fsm = .final → t.engine.done = true) ∧
      (s.StartsNow → t.engine.done = false) ∧
      (s.engine.fsm ≠ .final → ¬ s.StartsNow → t.engine.done = s.engine.done) ∧
      (s.engine.fsm ≠ .final → t.engine.digest = s.engine.digest))

/-- R33: a write of a block word in the coming cycle takes effect at its edge, whatever the sequencer does at the same
edge, and without one (and without reset) no block word changes. -/
def Obligations.BlockWritesTakeEffectAtTheirEdge : Prop :=
  ∀ (s : State), s.resetDone = true → s.nextCycle.rst = false →
    (∀ cw i v, s.nextCycle.txn = some cw → decodeCommand cw = .wrBlock i v →
      ∃ t, step s = .next t ∧ t.engine.blockWord i = v ∧ ∀ k, k ≠ i → t.engine.blockWord k = s.engine.blockWord k) ∧
    ((∀ cw i v, s.nextCycle.txn = some cw → decodeCommand cw ≠ .wrBlock i v) →
      ∃ t, step s = .next t ∧ t.engine.blockW = s.engine.blockW)

/-- R87: while an engine is busy, the only transaction that changes the engine is WR_BLOCK, and it changes BLOCK_W only;
and no transaction changes the computation: two engines that differ in BLOCK_W only, with
any two cycles without reset presented to them, step to engines that differ in BLOCK_W only. -/
def Obligations.BusyComputationIsIsolated : Prop :=
  (∀ (i : Instr) (s t : State), s.engine.busy = true → exec i s = .next t →
    t.engine.SameButBlock s.engine ∧ (t.engine = s.engine ∨ ∃ k v, i = .wrBlock k v)) ∧
  ∀ (s s' : State), s.resetDone = true → s'.resetDone = true → s.engine.busy = true →
    s.engine.SameButBlock s'.engine → s.nextCycle.rst = false → s'.nextCycle.rst = false →
    ∃ t t', step s = .next t ∧ step s' = .next t' ∧ t.engine.SameButBlock t'.engine

/-- R103: a START presented to a busy engine is dropped: the engine after the edge is the one an empty cycle leaves. -/
def Obligations.StartWhileBusyIsDropped : Prop :=
  ∀ (s : State) (c : PortCycle) (rest : List PortCycle), s.resetDone = true → s.engine.busy = true → c.IsStart →
    ∃ t t', step { s with inputs := c :: rest } = .next t ∧
      step { s with inputs := PortCycle.idle :: rest } = .next t' ∧ t.engine = t'.engine

/-- R106: the control registers after a step depend on the control registers and the cycle alone, never on the block, the
working registers, the schedule or the digest. -/
def Obligations.ControlIsIndependentOfData : Prop :=
  ∀ (s s' t t' : State), s.nextCycle = s'.nextCycle → s.engine.fsm = s'.engine.fsm → s.engine.rnd = s'.engine.rnd →
    s.engine.done = s'.engine.done → step s = .next t → step s' = .next t' →
    t.engine.fsm = t'.engine.fsm ∧ t.engine.rnd = t'.engine.rnd ∧ t.engine.done = t'.engine.done

/-! ### Reset -/

/-- R98: a reset edge gives FSM, RND, DONE, BLOCK_W and DIGEST their reset values in every state, whatever transaction
the cycle presents, with or without an earlier reset. -/
def Obligations.ResetEdgeResets : Prop :=
  ∀ (s : State), s.nextCycle.rst = true → ∃ t, step s = .next t ∧
    t.engine.fsm = .idle ∧ t.engine.rnd = 0#6 ∧ t.engine.done = false ∧
    (∀ (k : Nat) (h : k < 16), t.engine.blockW[k] = 0#32) ∧ (∀ (k : Nat) (h : k < 8), t.engine.digest[k] = 0#32) ∧
    t.resetDone = true ∧ t.inputs = s.inputs.tail

/-- R99: the machine right after reset: idle, STATUS reads 0, an all-zero block, no digest; with nothing presented it
executes nothing. -/
def Obligations.StateAfterReset : Prop :=
  State.reset.engine.fsm = .idle ∧ State.reset.engine.rnd = 0#6 ∧ State.reset.engine.done = false ∧
  State.reset.engine.statusWord = 0#32 ∧
  (∀ idx : WindowIndex, windowRead State.reset.engine idx = 0#32) ∧
  ∃ t, step State.reset = .next t ∧ t.engine = State.reset.engine

/-- R100: a run without a reset is refused, by name, in every state of a machine that has not been reset, and a reset
edge ends that. -/
def Obligations.RunWithoutResetIsRefused : Prop :=
  ∀ (s : State), s.resetDone = false →
    (s.nextCycle.rst = false → step s = .refused .noResetSincePowerOn) ∧
    (s.nextCycle.rst = true → ∃ t, step s = .next t ∧ t.resetDone = true)

/-! ### Invariants -/

/-- The control invariant is kept by every step (R13, R18, R19). -/
def Obligations.ControlInvariantIsKept : Prop :=
  ∀ (s t : State), s.engine.ControlOk → step s = .next t → t.engine.ControlOk

/-- The control invariant holds right after reset. -/
def Obligations.ControlInvariantAtReset : Prop := State.reset.engine.ControlOk

/-- R13's legal values: in an engine that meets the control invariant STATUS is 1 while busy, 2 when idle with a result,
0 when idle with none, and never 3. -/
def Obligations.StatusIsNeverThree : Prop :=
  ∀ (e : Engine), e.ControlOk →
    (e.fsm ≠ .idle → e.statusWord = 1#32) ∧ (e.fsm = .idle → e.done = true → e.statusWord = 2#32) ∧
    (e.fsm = .idle → e.done = false → e.statusWord = 0#32) ∧ e.statusWord ≠ 3#32

/-- The datapath invariant is kept by every step: a computation in progress stands where the reference stands on some
block, and DONE = 1 in IDLE means DIGEST is `compress` of some block (R1, R84, R85). -/
def Obligations.DatapathInvariantIsKept : Prop :=
  ∀ (s t : State), s.engine.DatapathOk → step s = .next t → t.engine.DatapathOk

/-- The datapath invariant holds right after reset. -/
def Obligations.DatapathInvariantAtReset : Prop := State.reset.engine.DatapathOk

/-! ### A whole computation -/

/-- R84: after the START edge and `i` more edges without reset, FSM = ROUND, RND = i, and the window holds the schedule
words `W[i + k]` of the block captured at the START edge, whatever the host presents meanwhile. -/
def Obligations.WindowHoldsTheSchedule : Prop :=
  ∀ (s : State) (i : Nat), s.StartsNow → i ≤ 63 → NoReset (s.inputs.take (i + 1)) →
    ∃ t, runFor (i + 1) s = .next t ∧ t.engine.fsm = .round ∧ t.engine.rnd.toNat = i ∧
      ∀ (k : Nat) (h : k < 16), i + k ≤ 63 → t.engine.sw[k] = scheduleAt s.engine.blockW (i + k)

/-- R85: 65 edges after an accepted START, without reset, FSM = IDLE, DONE = 1 and DIGEST is `compress` of the block that
BLOCK_W held before the START edge, for every sequence of host transactions meanwhile. -/
def Obligations.ComputationDeliversCompress : Prop :=
  ∀ (s : State), s.StartsNow → NoReset (s.inputs.take 66) →
    ∃ t, runFor 66 s = .next t ∧ t.engine.fsm = .idle ∧ t.engine.done = true ∧
      t.engine.digest = compress s.engine.blockW

/-- R105: the state each cycle of a computation reads, and the state after it until the next START. -/
def Obligations.ComputationTiming : Prop :=
  ∀ (s : State) (n : Nat), s.StartsNow → NoReset (s.inputs.take (n + 1)) →
    (s.engine.statusWord = 0#32 ∨ s.engine.statusWord = 2#32) ∧ (s.engine.ControlOk → s.engine.rnd = 0#6) ∧
    (n < 64 → ∃ t, runFor (n + 1) s = .next t ∧ t.engine.fsm = .round ∧ t.engine.rnd.toNat = n ∧
      t.engine.statusWord = 1#32 ∧ t.engine.digest = s.engine.digest) ∧
    (n = 64 → ∃ t, runFor (n + 1) s = .next t ∧ t.engine.fsm = .final ∧ t.engine.rnd = 0#6 ∧
      t.engine.statusWord = 1#32 ∧ t.engine.digest = s.engine.digest) ∧
    (65 ≤ n → (∀ c ∈ (s.inputs.take (n + 1)).drop 66, ¬ c.IsStart) →
      ∃ t, runFor (n + 1) s = .next t ∧ t.engine.fsm = .idle ∧ t.engine.rnd = 0#6 ∧
        t.engine.statusWord = 2#32 ∧ t.engine.digest = compress s.engine.blockW)

/-- R88: two computations on the same block give the same digest, whatever the two engines did before and whatever is
presented to each meanwhile. -/
def Obligations.DigestDependsOnTheBlockOnly : Prop :=
  ∀ (s s' : State), s.StartsNow → s'.StartsNow → s.engine.blockW = s'.engine.blockW →
    NoReset (s.inputs.take 66) → NoReset (s'.inputs.take 66) →
    ∃ t t', runFor 66 s = .next t ∧ runFor 66 s' = .next t' ∧ t.engine.digest = t'.engine.digest

/-! ### Datapath -/

/-- R61 and R71: a sum of two terms, or of any list of terms, is the true sum modulo 2^32, whatever the order and the
grouping, and T1 is the true sum of its five terms modulo 2^32, whatever they are. -/
def Obligations.SumsAreModulo32Bits : Prop :=
  (∀ x y : Word, (add32 x y).toNat = (x.toNat + y.toNat) % 2 ^ 32) ∧
  (∀ l : List Word, (l.foldr add32 0#32).toNat = (l.map BitVec.toNat).sum % 2 ^ 32) ∧
  (∀ x y z : Word, add32 x y = add32 y x ∧ add32 (add32 x y) z = add32 x (add32 y z)) ∧
  (∀ e f g h k w : Word, (temp1 e f g h k w).toNat =
    (h.toNat + (capSigma1 e).toNat + (choose e f g).toNat + k.toNat + w.toNat) % 2 ^ 32)

/-- R62: rotation bit by bit, for every amount up to 32, and the identity at 0 and 32. -/
def Obligations.RotationBitByBit : Prop :=
  (∀ (x : Word) (n k : Nat), n ≤ 32 → k < 32 → (rotr x n).getLsbD k = x.getLsbD ((k + n) % 32)) ∧
  ∀ x : Word, rotr x 0 = x ∧ rotr x 32 = x

/-- R63: the right shift bit by bit, zeros from the top. -/
def Obligations.ShiftBitByBit : Prop :=
  ∀ (x : Word) (n k : Nat), k < 32 → (shr x n).getLsbD k = if k + n ≤ 31 then x.getLsbD (k + n) else false

/-- R69 and R70: Ch selects and Maj votes, bit by bit, and Maj is symmetric. -/
def Obligations.ChooseSelectsAndMajorityVotes : Prop :=
  (∀ (e f g : Word) (k : Nat), (choose e f g).getLsbD k = if e.getLsbD k then f.getLsbD k else g.getLsbD k) ∧
  (∀ (a b c : Word) (k : Nat), (majority a b c).getLsbD k =
    decide (2 ≤ (a.getLsbD k).toNat + (b.getLsbD k).toNat + (c.getLsbD k).toNat)) ∧
  (∀ a b c : Word, majority a b c = majority b a c ∧ majority a b c = majority a c b)

/-- R65 to R68: the four sigma functions bit by bit. -/
def Obligations.SigmasBitByBit : Prop :=
  ∀ (x : Word) (k : Nat), k < 32 →
    let r := fun n => x.getLsbD ((k + n) % 32)
    let z := fun n => k + n ≤ 31 && x.getLsbD (k + n)
    (smallSigma0 x).getLsbD k = (r 7 ^^ r 18 ^^ z 3) ∧ (smallSigma1 x).getLsbD k = (r 17 ^^ r 19 ^^ z 10) ∧
    (capSigma0 x).getLsbD k = (r 2 ^^ r 13 ^^ r 22) ∧ (capSigma1 x).getLsbD k = (r 6 ^^ r 11 ^^ r 25)

/-- R73: the schedule of a block: its sixteen words, then the recurrence; the all-zero block has an all-zero schedule. -/
def Obligations.ScheduleRecurrence : Prop :=
  (∀ (b : Vector Word 16) (i : Nat) (h : i < 16), scheduleAt b i = b[i]) ∧
  (∀ (b : Vector Word 16) (i : Nat), 16 ≤ i → i ≤ 63 → scheduleAt b i =
    smallSigma1 (scheduleAt b (i - 2)) + scheduleAt b (i - 7) + smallSigma0 (scheduleAt b (i - 15)) +
      scheduleAt b (i - 16)) ∧
  (∀ i, scheduleAt (Vector.replicate 16 0#32) i = 0#32)

/-! ### Byte order and boundary -/

/-- R29: byte `B[4i+k]` of a block is bits `[31-8k : 24-8k]` of `BLOCK_W[i]`, and the words are all the bytes say. -/
def Obligations.BlockBytesAreBigEndian : Prop :=
  ∀ (b : Vector Byte 64) (i k : Nat) (hi : i < 16) (hk : k < 4),
    (blockOfBytes b)[i].extractLsb' (24 - 8 * k) 8 = b[4 * i + k]

/-- R30: byte `D[4j+k]` of a digest is bits `[31-8k : 24-8k]` of `DIGEST[j]`; the four bytes make the word again. -/
def Obligations.DigestBytesAreBigEndian : Prop :=
  ∀ (d : Vector Word 8) (j : Nat) (hj : j < 8),
    (∀ (k : Nat) (hk : k < 4), (bytesOfDigest d)[4 * j + k] = d[j].extractLsb' (24 - 8 * k) 8) ∧
    (bytesOfDigest d)[4 * j] ++ (bytesOfDigest d)[4 * j + 1] ++ (bytesOfDigest d)[4 * j + 2] ++
      (bytesOfDigest d)[4 * j + 3] = d[j]

/-- R31 and R36: an access becomes a command word exactly when it is one whole aligned word of the window, and a byte
string becomes a block exactly when it has 64 bytes; anything else is refused. -/
def Obligations.BoundaryRefusesWhatThePortCannotSay : Prop :=
  (∀ a : RawAccess, (∃ cw, a.toCommand = .ok cw) ↔
    a.byteOffset = 0 ∧ a.bytes = 4 ∧ a.idx < 32 ∧ a.wdata < 2 ^ 32) ∧
  (∀ (a : RawAccess) (cw : CommandWord), a.toCommand = .ok cw →
    cmdWe cw = a.we ∧ (cmdIdx cw).toNat = a.idx ∧ (cmdData cw).toNat = a.wdata) ∧
  (∀ l : List Byte, (∃ b, blockOfByteList l = .ok b) ↔ l.length = 64) ∧
  (∀ l : List Byte, l.length ≠ 64 → blockOfByteList l = .error .notSixtyFourBytes)

/-! ### Copies, and the host's notation -/

/-- R96: the copies of a platform do not touch each other: after an edge of the platform every copy is where its own
step takes it alone, and a platform of copies that have been reset always takes its edge. -/
def Obligations.EngineCopiesAreIndependent : Prop :=
  (∀ (p q : Platform), Platform.step p = .next q → q.length = p.length ∧
    ∀ (n : Nat) (s : State), p[n]? = some s → ∃ t, q[n]? = some t ∧ step s = .next t) ∧
  (∀ (p : Platform), (∀ s ∈ p, s.resetDone = true) →
    ∃ q, Platform.step p = .next q ∧ ∀ s ∈ q, s.resetDone = true)

/-- R49: what each statement of the assembler assembles to is the word of its transaction, canonically spelled. The
generic forms give the word of their direction, index and data, which decodes to the transaction with these; on the
reserved indices the RSVD forms give the word of their row's transaction; NOP alone gives no word. -/
def Obligations.StatementsAssembleToTheirTransactions : Prop :=
  (∀ (i : BitVec 4) (v : Word), (AsmStatement.wrBlock i v).assemble = some (encode (.wrBlock i v)) ∧
    (AsmStatement.rdBlock i).assemble = some (encode (.rdBlock i 0#32))) ∧
  (∀ (j : BitVec 3) (v : Word), (AsmStatement.wrDigest j v).assemble = some (encode (.wrDigest j v)) ∧
    (AsmStatement.rdDigest j).assemble = some (encode (.rdDigest j 0#32))) ∧
  (∀ v : Word, (AsmStatement.wrCtrl v).assemble = some (encode (.wrCtrl v)) ∧
    (AsmStatement.wrStatus v).assemble = some (encode (.wrStatus v))) ∧
  AsmStatement.rdCtrl.assemble = some (encode (.rdCtrl 0#32)) ∧
  AsmStatement.rdStatus.assemble = some (encode (.rdStatus 0#32)) ∧
  (∀ idx : WindowIndex, (AsmStatement.rd idx).assemble = some (packCommand false idx 0#32) ∧
    (decodeCommand (packCommand false idx 0#32)).isRead = true ∧
    (decodeCommand (packCommand false idx 0#32)).idx = idx ∧
    (decodeCommand (packCommand false idx 0#32)).wdata = 0#32) ∧
  (∀ (idx : WindowIndex) (v : Word), (AsmStatement.wr idx v).assemble = some (packCommand true idx v) ∧
    (decodeCommand (packCommand true idx v)).isRead = false ∧
    (decodeCommand (packCommand true idx v)).idx = idx ∧
    (decodeCommand (packCommand true idx v)).wdata = v) ∧
  (∀ (n : WindowIndex) (v : Word), isReservedA n = true →
    (AsmStatement.rdRsvd n).assemble = some (encode (.rdRsvdA n 0#32)) ∧
    (AsmStatement.wrRsvd n v).assemble = some (encode (.wrRsvdA n v))) ∧
  (∀ (n : WindowIndex) (v : Word), isReservedB n = true →
    (AsmStatement.rdRsvd n).assemble = some (encode (.rdRsvdB n 0#32)) ∧
    (AsmStatement.wrRsvd n v).assemble = some (encode (.wrRsvdB n v))) ∧
  (∀ (n : WindowIndex) (v : Word), (AsmStatement.wrRsvd n v).wellFormed = true →
    (AsmStatement.wrRsvd n v).assemble = (AsmStatement.wr n v).assemble ∧
    (AsmStatement.rdRsvd n).assemble = (AsmStatement.rd n).assemble) ∧
  (∀ (a : AsmStatement) (cw : CommandWord), a.assemble = some cw → (decodeCommand cw).isCanonical = true) ∧
  (∀ a : AsmStatement, a.assemble = none ↔ a = .nop)

/-- R50, WAITDONE: a host that waits for DONE on a busy engine leaves the loop within 66 cycles, at a read that shows
DONE = 1; on an idle engine with DONE = 1 the first read leaves it; on one with DONE = 0 (no START accepted since reset) it never leaves the loop. -/
def Obligations.WaitDoneEndsAfterAnAcceptedStart : Prop :=
  (∀ (s : State) (rest : List HostOp), s.resetDone = true → s.engine.busy = true → s.engine.ControlOk →
    ∃ n ≤ 66, ∃ t, hostCycles n ⟨.waitDone :: rest, s⟩ = .next ⟨rest, t⟩ ∧ t.rdata = 2#32 ∧ t.engine.fsm = .idle) ∧
  (∀ (s : State) (rest : List HostOp), s.resetDone = true → s.engine.fsm = .idle → s.engine.done = true →
    ∃ t, hostCycles 1 ⟨.waitDone :: rest, s⟩ = .next ⟨rest, t⟩ ∧ t.rdata = 2#32) ∧
  (∀ (s : State) (rest : List HostOp) (n : Nat), s.resetDone = true → s.engine.fsm = .idle → s.engine.done = false →
    ∃ t, hostCycles n ⟨.waitDone :: rest, s⟩ = .next ⟨.waitDone :: rest, t⟩)

/-- R50 and R49, LOADBLK: once its sixteen statements have been presented, with any gaps the host leaves between them,
the sixteen block words are the ones given, in every FSM state. -/
def Obligations.LoadBlockLoadsTheBlock : Prop :=
  ∀ (s : State) (w : Vector Word 16) (gaps : List Bool), s.resetDone = true → gaps.count true = 16 →
    ∃ t, hostSchedule gaps ⟨(Pseudo.loadBlk w).expand, s⟩ = .next ⟨[], t⟩ ∧ t.engine.blockW = w
end

