-- ==== Sys2Proof/Laws/Decode.lean ====
section
/-! SUPPORT. A packed command word bit by bit, and each window index by its range. -/

namespace Sys2Proof

/-- The bits of `{WE, IDX, WDATA}`, from the bottom. -/
theorem packCommand_bit (we : Bool) (idx : WindowIndex) (d : Word) (k : Nat) :
    (packCommand we idx d).getLsbD k =
      if k < 32 then d.getLsbD k else if k < 37 then idx.getLsbD (k - 32) else (decide (k = 37) && we) := by
  rw [packCommand, BitVec.getLsbD_append, BitVec.getLsbD_append]
  split
  · rfl
  · split <;> split
    · rfl
    · omega
    · omega
    · rw [BitVec.getLsbD_ofBool]
      congr 1
      simp
      omega

/-- The decoder's pattern for row (a) of the reserved rows is the check on its operand. -/
theorem isRsvdAIdx_eq : ∀ idx : WindowIndex, isRsvdAIdx idx = isReservedA idx := by decide

/-- A window index that is neither a block nor a digest word, nor CTRL nor STATUS, nor 26 or 27, is 28..31. -/
theorem isReservedB_of_rest : ∀ idx : WindowIndex, isBlockIdx idx = false → isDigestIdx idx = false → idx ≠ 24#5 →
    idx ≠ 25#5 → isRsvdAIdx idx = false → isReservedB idx = true := by decide

end Sys2Proof
end

