-- ==== Sys2Proof/Laws/State.lean ====
section
/-! SUPPORT. What each update of the state does to each field, so that no later proof unfolds a record update. -/

namespace Sys2Proof.Machine

section withEngine
variable (s : State) (e : Engine)
@[simp] theorem State.withEngine_engine : (s.withEngine e).engine = e := rfl
@[simp] theorem State.withEngine_inputs : (s.withEngine e).inputs = s.inputs := rfl
@[simp] theorem State.withEngine_rdata : (s.withEngine e).rdata = s.rdata := rfl
@[simp] theorem State.withEngine_draws : (s.withEngine e).draws = s.draws := rfl
@[simp] theorem State.withEngine_resetDone : (s.withEngine e).resetDone = s.resetDone := rfl
end withEngine

section drive
variable (s : State) (v : Word)
@[simp] theorem State.drive_engine : (s.drive v).engine = s.engine := rfl
@[simp] theorem State.drive_inputs : (s.drive v).inputs = s.inputs := rfl
@[simp] theorem State.drive_rdata : (s.drive v).rdata = v := rfl
@[simp] theorem State.drive_draws : (s.drive v).draws = s.draws := rfl
@[simp] theorem State.drive_resetDone : (s.drive v).resetDone = s.resetDone := rfl
end drive

section undriven
variable (s : State)
@[simp] theorem State.undriven_engine : s.undriven.engine = s.engine := rfl
@[simp] theorem State.undriven_inputs : s.undriven.inputs = s.inputs := rfl
@[simp] theorem State.undriven_draws : s.undriven.draws = s.draws + 1 := rfl
@[simp] theorem State.undriven_resetDone : s.undriven.resetDone = s.resetDone := rfl
end undriven

section popCycle
variable (s : State)
@[simp] theorem State.popCycle_engine : s.popCycle.engine = s.engine := rfl
@[simp] theorem State.popCycle_inputs : s.popCycle.inputs = s.inputs.tail := rfl
@[simp] theorem State.popCycle_rdata : s.popCycle.rdata = s.rdata := rfl
@[simp] theorem State.popCycle_draws : s.popCycle.draws = s.draws := rfl
@[simp] theorem State.popCycle_resetDone : s.popCycle.resetDone = s.resetDone := rfl
end popCycle

section resetEdge
variable (s : State)
@[simp] theorem resetEdge_blockW : (resetEdge s).engine.blockW = Vector.replicate 16 0#32 := rfl
@[simp] theorem resetEdge_digest : (resetEdge s).engine.digest = Vector.replicate 8 0#32 := rfl
@[simp] theorem resetEdge_done : (resetEdge s).engine.done = false := rfl
@[simp] theorem resetEdge_fsm : (resetEdge s).engine.fsm = .idle := rfl
@[simp] theorem resetEdge_rnd : (resetEdge s).engine.rnd = 0#6 := rfl
@[simp] theorem resetEdge_inputs : (resetEdge s).inputs = s.inputs := rfl
@[simp] theorem resetEdge_draws : (resetEdge s).draws = s.draws + resetDraws := rfl
@[simp] theorem resetEdge_resetDone : (resetEdge s).resetDone = true := rfl
end resetEdge

section setBlockWord
variable (e : Engine) (i : BitVec 4) (v : Word)
@[simp] theorem Engine.setBlockWord_digest : (e.setBlockWord i v).digest = e.digest := rfl
@[simp] theorem Engine.setBlockWord_done : (e.setBlockWord i v).done = e.done := rfl
@[simp] theorem Engine.setBlockWord_fsm : (e.setBlockWord i v).fsm = e.fsm := rfl
@[simp] theorem Engine.setBlockWord_rnd : (e.setBlockWord i v).rnd = e.rnd := rfl
@[simp] theorem Engine.setBlockWord_work : (e.setBlockWord i v).work = e.work := rfl
@[simp] theorem Engine.setBlockWord_sw : (e.setBlockWord i v).sw = e.sw := rfl
@[simp] theorem Engine.setBlockWord_blockW : (e.setBlockWord i v).blockW = e.blockW.set i.toNat v := rfl
end setBlockWord

section start
variable (e : Engine)
@[simp] theorem Engine.start_blockW : e.start.blockW = e.blockW := rfl
@[simp] theorem Engine.start_digest : e.start.digest = e.digest := rfl
@[simp] theorem Engine.start_done : e.start.done = false := rfl
@[simp] theorem Engine.start_fsm : e.start.fsm = .round := rfl
@[simp] theorem Engine.start_rnd : e.start.rnd = 0#6 := rfl
@[simp] theorem Engine.start_work : e.start.work = initialWork := rfl
@[simp] theorem Engine.start_sw : e.start.sw = e.blockW := rfl
end start

section roundEdge
variable (x y : Engine)
@[simp] theorem roundEdge_blockW : (roundEdge x y).blockW = y.blockW := rfl
@[simp] theorem roundEdge_digest : (roundEdge x y).digest = y.digest := rfl
@[simp] theorem roundEdge_done : (roundEdge x y).done = y.done := rfl
@[simp] theorem roundEdge_fsm : (roundEdge x y).fsm = if x.rnd = 63#6 then .final else y.fsm := rfl
@[simp] theorem roundEdge_rnd : (roundEdge x y).rnd = x.rnd + 1#6 := rfl
@[simp] theorem roundEdge_work : (roundEdge x y).work = roundFn (kAt x.rnd) x.work x.sw[0] := rfl
@[simp] theorem roundEdge_sw : (roundEdge x y).sw = shiftWindow x.sw := rfl
end roundEdge

section finalEdge
variable (x y : Engine)
@[simp] theorem finalEdge_blockW : (finalEdge x y).blockW = y.blockW := rfl
@[simp] theorem finalEdge_digest : (finalEdge x y).digest = finalize x.work := rfl
@[simp] theorem finalEdge_done : (finalEdge x y).done = true := rfl
@[simp] theorem finalEdge_fsm : (finalEdge x y).fsm = .idle := rfl
@[simp] theorem finalEdge_rnd : (finalEdge x y).rnd = y.rnd := rfl
@[simp] theorem finalEdge_work : (finalEdge x y).work = y.work := rfl
@[simp] theorem finalEdge_sw : (finalEdge x y).sw = y.sw := rfl
end finalEdge

end Sys2Proof.Machine
end

