-- ==== Sys2Proof/Laws/Ops.lean ====
section
/-! SUPPORT. One lemma for each shared operation, saying once all it can do. -/

namespace Sys2Proof.Machine

/-! ### Presenting a command word -/

@[simp] theorem State.present_nextCycle (s : State) (cw : CommandWord) :
    (s.present cw).nextCycle = PortCycle.command cw := rfl

@[simp] theorem State.present_popCycle (s : State) (cw : CommandWord) : (s.present cw).popCycle = s := rfl

@[simp] theorem State.present_engine (s : State) (cw : CommandWord) : (s.present cw).engine = s.engine := rfl

@[simp] theorem State.present_resetDone (s : State) (cw : CommandWord) : (s.present cw).resetDone = s.resetDone := rfl

/-! ### The registers a transaction reaches -/

theorem Engine.blockWord_setBlockWord (e : Engine) (i k : BitVec 4) (v : Word) :
    (e.setBlockWord i v).blockWord k = if k = i then v else e.blockWord k := by
  simp only [Engine.blockWord, Engine.setBlockWord, Vector.getElem_set, BitVec.toNat_inj, eq_comm]

theorem Engine.setBlockWord_sameButBlock (e : Engine) (i : BitVec 4) (v : Word) :
    (e.setBlockWord i v).SameButBlock e := ⟨rfl, rfl, rfl, rfl, rfl, rfl⟩

theorem Engine.SameButBlock.refl (e : Engine) : e.SameButBlock e := ⟨rfl, rfl, rfl, rfl, rfl, rfl⟩

theorem Engine.busy_iff (e : Engine) : e.busy = true ↔ e.fsm ≠ .idle := by
  simp [Engine.busy]

/-! ### The sequencer -/

theorem sequencerStep_idle {x : Engine} (y : Engine) (h : x.fsm = .idle) : sequencerStep x y = y := by
  simp [sequencerStep, h]

theorem sequencerStep_round {x : Engine} (y : Engine) (h : x.fsm = .round) : sequencerStep x y = roundEdge x y := by
  simp [sequencerStep, h]

theorem sequencerStep_final {x : Engine} (y : Engine) (h : x.fsm = .final) : sequencerStep x y = finalEdge x y := by
  simp [sequencerStep, h]

theorem shiftWindow_lower (sw : Vector Word 16) (k : Nat) (h : k < 15) : (shiftWindow sw)[k] = sw[k + 1] := by
  have h' : k + 1 < 16 := by omega
  simp [shiftWindow, h']

theorem shiftWindow_top (sw : Vector Word 16) :
    (shiftWindow sw)[15] = scheduleWord sw[14] sw[9] sw[1] sw[0] := by
  simp [shiftWindow]

/-! ### The transactions -/

/-- What a transaction can do to the engine, as one function: `exec` answers this engine and nothing else. -/
def transactionEngine (i : Instr) (e : Engine) : Engine :=
  match i with
  | .wrBlock k v => e.setBlockWord k v
  | .wrCtrl d => if acceptsStart d e then e.start else e
  | .rdBlock _ _ => e
  | .rdDigest _ _ => e
  | .wrDigest _ _ => e
  | .rdCtrl _ => e
  | .rdStatus _ => e
  | .wrStatus _ => e
  | .rdRsvdA _ _ => e
  | .rdRsvdB _ _ => e
  | .wrRsvdA _ _ => e
  | .wrRsvdB _ _ => e

/-- Every transaction answers a next state: its engine, and the frame of the fields it never writes. -/
theorem exec_next (i : Instr) (s : State) : ∃ t, exec i s = .next t ∧
    t.engine = transactionEngine i s.engine ∧ t.inputs = s.inputs ∧ t.resetDone = s.resetDone := by
  cases i <;> exact ⟨_, rfl, rfl, rfl, rfl⟩

/-- In a busy engine a transaction reaches `BLOCK_W` alone. -/
theorem transactionEngine_busy (i : Instr) (e : Engine) (h : e.fsm ≠ .idle) :
    (transactionEngine i e).SameButBlock e := by
  cases i <;> simp [transactionEngine, acceptsStart, h, Engine.SameButBlock]

/-! ### One edge -/

/-- What the cycle's transaction does to the engine, `none` when there is none. -/
def cycleEngine (c : PortCycle) (e : Engine) : Engine :=
  match c.txn with
  | none => e
  | some cw => transactionEngine (decodeCommand cw) e

theorem runTransaction_next (c : PortCycle) (s : State) : ∃ t, runTransaction c.txn s = .next t ∧
    t.engine = cycleEngine c s.engine ∧ t.inputs = s.inputs ∧ t.resetDone = s.resetDone := by
  unfold cycleEngine runTransaction
  cases c.txn with
  | none => exact ⟨_, rfl, rfl, rfl, rfl⟩
  | some cw => exact exec_next _ _

/-- Everything an edge can do: reset, refuse a run that has had none, or take the transaction and the sequencer step. -/
theorem clockEdge_cases (c : PortCycle) (s : State) :
    (c.rst = true ∧ clockEdge c s = .next (resetEdge s)) ∨
    (c.rst = false ∧ s.resetDone = false ∧ clockEdge c s = .refused .noResetSincePowerOn) ∨
    (c.rst = false ∧ s.resetDone = true ∧ ∃ t, clockEdge c s = .next t ∧
      t.engine = sequencerStep s.engine (cycleEngine c s.engine) ∧ t.inputs = s.inputs ∧ t.resetDone = true) := by
  unfold clockEdge
  cases c.rst with
  | true => exact .inl ⟨rfl, rfl⟩
  | false =>
    cases hr : s.resetDone with
    | false => exact .inr (.inl ⟨rfl, rfl, rfl⟩)
    | true =>
      obtain ⟨t, ht, he, hi, hd⟩ := runTransaction_next c s
      refine .inr (.inr ⟨rfl, rfl, t.withEngine (sequencerStep s.engine t.engine), ?_, ?_, hi, hd.trans hr⟩)
      · simp [ht, withSequencer]
      · simp [he]

/-- A step that answers a next state either took a reset edge or the transaction and the sequencer step. -/
theorem step_cases {s t : State} (h : step s = .next t) :
    (s.nextCycle.rst = true ∧ t = resetEdge s.popCycle) ∨
    (s.nextCycle.rst = false ∧ s.resetDone = true ∧
      t.engine = sequencerStep s.engine (cycleEngine s.nextCycle s.engine) ∧
      t.inputs = s.inputs.tail ∧ t.resetDone = true) := by
  unfold step at h
  rcases clockEdge_cases s.nextCycle s.popCycle with ⟨hr, he⟩ | ⟨_, _, he⟩ | ⟨hr, hd, u, he, hu⟩
  · rw [he] at h
    cases h
    exact .inl ⟨hr, rfl⟩
  · rw [he] at h
    cases h
  · rw [he] at h
    cases h
    exact .inr ⟨hr, hd, hu.1, hu.2.1, hu.2.2⟩

/-- A step without reset, of an engine that has been reset, answers a next state. -/
theorem step_next {s : State} (hd : s.resetDone = true) (hr : s.nextCycle.rst = false) : ∃ t, step s = .next t ∧
    t.engine = sequencerStep s.engine (cycleEngine s.nextCycle s.engine) ∧ t.inputs = s.inputs.tail ∧
    t.resetDone = true := by
  rcases clockEdge_cases s.nextCycle s.popCycle with ⟨h, _⟩ | ⟨_, h, _⟩ | ⟨_, _, u, he, hu⟩
  · simp [hr] at h
  · simp [hd] at h
  · exact ⟨u, he, hu.1, hu.2.1, hu.2.2⟩

end Sys2Proof.Machine
end

