-- ==== Sys2Proof/Laws/PerInstr.lean ====
section
/-! SUPPORT. The per-instruction family `RowSelects`: the six bits (WE, IDX) of a well-formed transaction, alone, match
its row of the opcode map (30_encoding.md R42). -/

namespace Sys2Proof.Laws.RowSelects

/-- The word of a well-formed transaction with WDATA 0 matches its row's mask and pattern. -/
def Statement (i : Instr) : Prop :=
  i.wellFormed = true → i.row.matches (packCommand (!i.isRead) i.idx 0#32) = true

theorem wrBlock (i : BitVec 4) (v : Word) : Statement (.wrBlock i v) := by
  have h : ∀ i : BitVec 4, OpcodeRow.matches ⟨"WR_BLOCK", 0x3000000000#38, 0x2000000000#38⟩ (packCommand true (blockIdx i) 0#32) = true := by decide
  exact fun _ => h i

theorem rdBlock (i : BitVec 4) (d : Word) : Statement (.rdBlock i d) := by
  have h : ∀ i : BitVec 4, OpcodeRow.matches ⟨"RD_BLOCK", 0x3000000000#38, 0x0000000000#38⟩ (packCommand false (blockIdx i) 0#32) = true := by decide
  exact fun _ => h i

theorem rdDigest (j : BitVec 3) (d : Word) : Statement (.rdDigest j d) := by
  have h : ∀ j : BitVec 3, OpcodeRow.matches ⟨"RD_DIGEST", 0x3800000000#38, 0x1000000000#38⟩ (packCommand false (digestIdx j) 0#32) = true := by decide
  exact fun _ => h j

theorem wrDigest (j : BitVec 3) (d : Word) : Statement (.wrDigest j d) := by
  have h : ∀ j : BitVec 3, OpcodeRow.matches ⟨"WR_DIGEST", 0x3800000000#38, 0x3000000000#38⟩ (packCommand true (digestIdx j) 0#32) = true := by decide
  exact fun _ => h j

theorem wrCtrl (d : Word) : Statement (.wrCtrl d) := fun _ => by
  show OpcodeRow.matches ⟨"WR_CTRL", 0x3F00000000#38, 0x3800000000#38⟩ (packCommand true 24#5 0#32) = true
  decide

theorem rdCtrl (d : Word) : Statement (.rdCtrl d) := fun _ => by
  show OpcodeRow.matches ⟨"RD_CTRL", 0x3F00000000#38, 0x1800000000#38⟩ (packCommand false 24#5 0#32) = true
  decide

theorem rdStatus (d : Word) : Statement (.rdStatus d) := fun _ => by
  show OpcodeRow.matches ⟨"RD_STATUS", 0x3F00000000#38, 0x1900000000#38⟩ (packCommand false 25#5 0#32) = true
  decide

theorem wrStatus (d : Word) : Statement (.wrStatus d) := fun _ => by
  show OpcodeRow.matches ⟨"WR_STATUS", 0x3F00000000#38, 0x3900000000#38⟩ (packCommand true 25#5 0#32) = true
  decide

theorem rdRsvdA (idx : WindowIndex) (d : Word) : Statement (.rdRsvdA idx d) := by
  revert idx
  show ∀ idx : WindowIndex, isReservedA idx = true →
    OpcodeRow.matches ⟨"RD_RSVD_a", 0x3E00000000#38, 0x1A00000000#38⟩ (packCommand false idx 0#32) = true
  decide

theorem rdRsvdB (idx : WindowIndex) (d : Word) : Statement (.rdRsvdB idx d) := by
  revert idx
  show ∀ idx : WindowIndex, isReservedB idx = true →
    OpcodeRow.matches ⟨"RD_RSVD_b", 0x3C00000000#38, 0x1C00000000#38⟩ (packCommand false idx 0#32) = true
  decide

theorem wrRsvdA (idx : WindowIndex) (d : Word) : Statement (.wrRsvdA idx d) := by
  revert idx
  show ∀ idx : WindowIndex, isReservedA idx = true →
    OpcodeRow.matches ⟨"WR_RSVD_a", 0x3E00000000#38, 0x3A00000000#38⟩ (packCommand true idx 0#32) = true
  decide

theorem wrRsvdB (idx : WindowIndex) (d : Word) : Statement (.wrRsvdB idx d) := by
  revert idx
  show ∀ idx : WindowIndex, isReservedB idx = true →
    OpcodeRow.matches ⟨"WR_RSVD_b", 0x3C00000000#38, 0x3C00000000#38⟩ (packCommand true idx 0#32) = true
  decide

end Sys2Proof.Laws.RowSelects
end

