-- ==== Sys2Proof/Machine/Assembler.lean ====
section
/-! DEFINITION. The text of host programs, one statement a line (30_encoding.md R49, R50): comments, labels, numbers,
register names, statements and pseudo-instructions. A line that is none of them is rejected by name. What R49 leaves
open about the text is in notes/assumptions/14.md. -/

namespace Sys2Proof.Machine

/-- Why a line is no statement. -/
inductive AsmReject where
  /-- The words are no statement or pseudo-instruction of R49 or R50. Raised by `parseTokens`. Safe. -/
  | unknownStatement
  /-- A register is not one of R49, or its index is out of range. Raised by `parseRegister`. Safe. -/
  | badRegister
  /-- A number is malformed or out of range. Raised by `parseWord`. Safe. -/
  | badNumber
  /-- LOADBYTES does not have exactly 128 hexadecimal digits (R50, R36). Raised by `parseBlockBytes`. Safe. -/
  | badBytes
  deriving DecidableEq, Repr

/-- A line with its `;` comment taken off (R49). -/
def dropComment (line : List Char) : List Char := line.takeWhile (· != ';')

/-- The words of a line: split at blanks, a comma a word of its own. `acc` holds the word in progress, reversed. -/
def splitWords (acc : List Char) : List Char → List (List Char)
  | [] => if acc.isEmpty then [] else [acc.reverse]
  | c :: rest =>
    let done := if acc.isEmpty then [] else [acc.reverse]
    if c == ' ' || c == '\t' || c == '\r' then done ++ splitWords [] rest
    else if c == ',' then done ++ [','] :: splitWords [] rest
    else splitWords (c :: acc) rest

/-- The value of a hexadecimal digit. -/
def hexDigit (c : Char) : Option Nat :=
  if '0' ≤ c ∧ c ≤ '9' then some (c.toNat - '0'.toNat)
  else if 'a' ≤ c ∧ c ≤ 'f' then some (c.toNat - 'a'.toNat + 10)
  else if 'A' ≤ c ∧ c ≤ 'F' then some (c.toNat - 'A'.toNat + 10)
  else none

/-- The value of a decimal digit. -/
def decDigit (c : Char) : Option Nat :=
  if '0' ≤ c ∧ c ≤ '9' then some (c.toNat - '0'.toNat) else none

/-- The number a list of digits stands for in a base, most significant digit first. -/
def digitsValue (base : Nat) (digit : Char → Option Nat) (cs : List Char) : Option Nat :=
  if cs.isEmpty then none
  else cs.foldl (fun acc c => acc.bind fun n => (digit c).map fun d => n * base + d) (some 0)

/-- A number: decimal, or `0x` hexadecimal with `_` only grouping digits (R49). Leading zeros, digits of either case and
`_` anywhere after `0x` are allowed: DESIGN CHOICE, safe (notes/assumptions/14.md). -/
def parseNumber : List Char → Option Nat
  | '0' :: 'x' :: cs => digitsValue 16 hexDigit (cs.filter (· != '_'))
  | cs => digitsValue 10 decDigit cs

/-- A number below a bound. -/
def parseBelow (bound : Nat) (cs : List Char) : Option Nat := (parseNumber cs).filter (· < bound)

/-- An `<imm32>` (R49). -/
def parseWord (cs : List Char) : Except AsmReject Word :=
  match parseBelow (2 ^ 32) cs with
  | some n => .ok (BitVec.ofNat 32 n)
  | none => .error .badNumber

/-- A register operand: what a read and a write of it assemble from. -/
inductive AsmRegister where
  | block (i : BitVec 4)
  | digest (j : BitVec 3)
  | ctrl
  | status
  | rsvd (n : WindowIndex)
  | index (idx : WindowIndex)
  deriving DecidableEq, Repr

/-- What is left of a text after a prescribed beginning. -/
def afterName (name text : List Char) : Option (List Char) :=
  if text.take name.length == name then some (text.drop name.length) else none

/-- The index a register name carries, below a bound. R49 does not say how it is written: it is read as decimal digits
only, leading zeros allowed (`BLOCK_W007` is `BLOCK_W7`), and hexadecimal is rejected. DESIGN CHOICE, safe
(notes/assumptions/14.md). -/
def nameIndex (name text : List Char) (bound : Nat) : Option Nat :=
  ((afterName name text).bind (digitsValue 10 decDigit)).filter (· < bound)

/-- The generic numeric form `[<idx>]`, idx = 0..31 (R49): any number of R49, with no blank inside the brackets.
DESIGN CHOICE, safe (notes/assumptions/14.md). -/
def parseBracketed (text : List Char) : Option Nat :=
  match text with
  | '[' :: cs => if cs.getLast? == some ']' then parseBelow 32 cs.dropLast else none
  | _ => none

/-- A register name of R49, case-insensitive. -/
def parseRegister (text : List Char) : Except AsmReject AsmRegister :=
  let low := text.map Char.toLower
  if low == ['c', 't', 'r', 'l'] then .ok .ctrl
  else if low == ['s', 't', 'a', 't', 'u', 's'] then .ok .status
  else match nameIndex ['b', 'l', 'o', 'c', 'k', '_', 'w'] low 16 with
    | some i => .ok (.block (BitVec.ofNat 4 i))
    | none => match nameIndex ['d', 'i', 'g', 'e', 's', 't'] low 8 with
      | some j => .ok (.digest (BitVec.ofNat 3 j))
      | none => match (nameIndex ['r', 's', 'v', 'd'] low 32).filter (26 ≤ ·) with
        | some n => .ok (.rsvd (BitVec.ofNat 5 n))
        | none => match parseBracketed low with
          | some n => .ok (.index (BitVec.ofNat 5 n))
          | none => .error .badRegister

/-- `RD <register>` (R49). -/
def AsmRegister.read : AsmRegister → AsmStatement
  | .block i => .rdBlock i
  | .digest j => .rdDigest j
  | .ctrl => .rdCtrl
  | .status => .rdStatus
  | .rsvd n => .rdRsvd n
  | .index idx => .rd idx

/-- `WR <register>, <imm32>` (R49). -/
def AsmRegister.write (v : Word) : AsmRegister → AsmStatement
  | .block i => .wrBlock i v
  | .digest j => .wrDigest j v
  | .ctrl => .wrCtrl v
  | .status => .wrStatus v
  | .rsvd n => .wrRsvd n v
  | .index idx => .wr idx v

/-- `w0, w1, ..., w15`: words parted by commas (R50). -/
def parseWords : List (List Char) → Except AsmReject (List Word)
  | [] => .error .unknownStatement
  | [w] => (parseWord w).map ([·])
  | w :: [','] :: rest => do return (← parseWord w) :: (← parseWords rest)
  | _ => .error .unknownStatement

/-- Exactly 16 words make a block (R50). -/
def parseBlock (ts : List (List Char)) : Except AsmReject (Vector Word 16) :=
  (parseWords ts).bind fun ws =>
    if h : ws.length = 16 then .ok ⟨ws.toArray, by simpa using h⟩ else .error .unknownStatement

/-- The bytes of a string of hexadecimal digits, two a byte. -/
def parseBytes : List Char → Option (List Byte)
  | [] => some []
  | [_] => none
  | c :: d :: rest => do return BitVec.ofNat 8 ((← hexDigit c) * 16 + (← hexDigit d)) :: (← parseBytes rest)

/-- `<128 hex digits>`: the 64 bytes of a block (R50). -/
def parseBlockBytes (cs : List Char) : Except AsmReject (Vector Byte 64) :=
  match parseBytes cs with
  | some l => if h : l.length = 64 then .ok ⟨l.toArray, by simpa using h⟩ else .error .badBytes
  | none => .error .badBytes

/-- The number of `NOP <n>` (R50). -/
def parseCount (cs : List Char) : Except AsmReject Nat :=
  match parseNumber cs with
  | some n => .ok n
  | none => .error .badNumber

/-- The words of one line, its label taken off (R49, R50). -/
def parseTokens : List (List Char) → Except AsmReject (List HostOp)
  | [] => .ok []
  | [['R', 'D'], r] => (parseRegister r).map fun x => [.stmt x.read]
  | [['W', 'R'], r, [','], v] => do return [.stmt ((← parseRegister r).write (← parseWord v))]
  | [['N', 'O', 'P']] => .ok [.stmt .nop]
  | [['N', 'O', 'P'], n] => (parseCount n).map fun k => (Pseudo.nop k).expand
  | [['S', 'T', 'A', 'R', 'T']] => .ok Pseudo.start.expand
  | [['W', 'A', 'I', 'T', 'D', 'O', 'N', 'E']] => .ok Pseudo.waitDone.expand
  | [['W', 'A', 'I', 'T', 'I', 'D', 'L', 'E']] => .ok Pseudo.waitIdle.expand
  | [['R', 'D', 'D', 'I', 'G', 'E', 'S', 'T']] => .ok Pseudo.rdDigest.expand
  | [['L', 'O', 'A', 'D', 'B', 'Y', 'T', 'E', 'S'], b] => (parseBlockBytes b).map fun x => (Pseudo.loadBytes x).expand
  | ['L', 'O', 'A', 'D', 'B', 'L', 'K'] :: ws => (parseBlock ws).map fun x => (Pseudo.loadBlk x).expand
  | ['C', 'O', 'M', 'P', 'R', 'E', 'S', 'S'] :: ws => (parseBlock ws).map fun x => (Pseudo.compress x).expand
  | _ => .error .unknownStatement

/-- A label: a first word that ends in a colon (R49). -/
def dropLabel : List (List Char) → List (List Char)
  | [] => []
  | t :: rest => if t.getLast? == some ':' then rest else t :: rest

/-- One line of a host program (R49, R50): its elements, or why it is rejected. An empty line has none. -/
def parseLine (line : List Char) : Except AsmReject (List HostOp) :=
  parseTokens (dropLabel (splitWords [] (dropComment line)))

/-- A host program, one statement a line (R49). -/
def parseProgram : List (List Char) → Except AsmReject (List HostOp)
  | [] => .ok []
  | l :: rest => do return (← parseLine l) ++ (← parseProgram rest)

end Sys2Proof.Machine
end

