-- ==== Sys2Proof/Tests/Slice0.lean ====
section
/-! SUPPORT. The model's own tests. Expected values come from the spec: 95_test_vectors.md, the examples of
40_host_commands.md and 41_datapath_functions.md, and words written out by hand from 30_encoding.md R41 and R42. Then a
witness for the hypotheses of each statement that has some. -/

namespace Sys2Proof.Tests

open Sys2Proof.Machine

/-- The outcome is a next state with a property. -/
def nextWith (o : Host.Outcome State Fault Refusal) (p : State → Bool) : Bool :=
  match o with
  | .next t => p t
  | .fault _ => false
  | .refused _ => false

/-- The base state of 95_test_vectors.md section 2.9: reset, then `BLOCK_W[0]` = 0x61626380. -/
def base : State := State.reset.withEngine (Engine.reset.setBlockWord 0 0x61626380#32)

/-- An engine in ROUND on the block of `base`, at a round index, with the registers a START left. -/
def inRound (r : BitVec 6) : State := base.withEngine { base.engine.start with rnd := r }

/-- An engine in FINAL. -/
def inFinal : State := base.withEngine { base.engine.start with fsm := .final }

/-- An idle engine with a result. -/
def withResult : State := base.withEngine { base.engine with done := true }

/-- A state with one cycle presented. -/
def given (s : State) (c : PortCycle) : State := { s with inputs := [c] }

/-- The START word of R55's example. -/
def startWord : CommandWord := 0x3800000001#38

/-! ### Well-formedness: each check refuses an ill-formed term -/

theorem test_wellFormed_rdRsvdA : (Instr.rdRsvdA 26 0).wellFormed = true ∧ (Instr.rdRsvdA 25 0).wellFormed = false ∧
    (Instr.rdRsvdA 28 0).wellFormed = false := by decide
theorem test_wellFormed_rdRsvdB : (Instr.rdRsvdB 31 0).wellFormed = true ∧ (Instr.rdRsvdB 27 0).wellFormed = false := by decide
theorem test_wellFormed_wrRsvdA : (Instr.wrRsvdA 27 9).wellFormed = true ∧ (Instr.wrRsvdA 0 9).wellFormed = false := by decide
theorem test_wellFormed_wrRsvdB : (Instr.wrRsvdB 28 9).wellFormed = true ∧ (Instr.wrRsvdB 16 9).wellFormed = false := by decide
theorem test_canonical_read : (Instr.rdStatus 0).isCanonical = true ∧ (Instr.rdStatus 5).isCanonical = false ∧
    (Instr.wrStatus 5).isCanonical = true := by decide
theorem test_wellFormed_statement : (AsmStatement.rdRsvd 25).wellFormed = false ∧
    (AsmStatement.wrRsvd 31 0).wellFormed = true := by decide

/-! ### Decoding: one word for each constructor, written out from R41 and R42: {WE, IDX, WDATA} -/

theorem test_decode_wrBlock : decodeCommand (1#1 ++ 0b00011#5 ++ 0xDEADBEEF#32) = .wrBlock 3 0xDEADBEEF := by decide
theorem test_decode_rdBlock : decodeCommand (0#1 ++ 0b01111#5 ++ 0#32) = .rdBlock 15 0 := by decide
theorem test_decode_rdDigest : decodeCommand (0#1 ++ 0b10111#5 ++ 0#32) = .rdDigest 7 0 := by decide
theorem test_decode_wrDigest : decodeCommand (1#1 ++ 0b10000#5 ++ 0xFFFFFFFF#32) = .wrDigest 0 0xFFFFFFFF := by decide
theorem test_decode_wrCtrl : decodeCommand (1#1 ++ 0b11000#5 ++ 1#32) = .wrCtrl 1 := by decide
theorem test_decode_rdCtrl : decodeCommand (0#1 ++ 0b11000#5 ++ 0#32) = .rdCtrl 0 := by decide
theorem test_decode_rdStatus : decodeCommand (0#1 ++ 0b11001#5 ++ 0#32) = .rdStatus 0 := by decide
theorem test_decode_wrStatus : decodeCommand (1#1 ++ 0b11001#5 ++ 0#32) = .wrStatus 0 := by decide
theorem test_decode_rdRsvdA : decodeCommand (0#1 ++ 0b11011#5 ++ 0#32) = .rdRsvdA 27 0 := by decide
theorem test_decode_rdRsvdB : decodeCommand (0#1 ++ 0b11100#5 ++ 0#32) = .rdRsvdB 28 0 := by decide
theorem test_decode_wrRsvdA : decodeCommand (1#1 ++ 0b11010#5 ++ 0x12345678#32) = .wrRsvdA 26 0x12345678 := by decide
theorem test_decode_wrRsvdB : decodeCommand (1#1 ++ 0b11111#5 ++ 0xFFFFFFFF#32) = .wrRsvdB 31 0xFFFFFFFF := by decide
theorem test_decode_too_wide : decode (2 ^ 38) = .error .widerThan38Bits := rfl
theorem test_decodeTableWord : decodeTableWord 40 0x2061626380 = some (.wrBlock 0 0x61626380) ∧
    decodeTableWord 40 0x4000000000 = none := by decide
theorem test_opcodeTable_rows : opcodeTable.length = 12 ∧ opcodeTable.Pairwise (· ≠ ·) := by decide

/-! ### The transactions, one step each (95_test_vectors.md section 2.9) -/

theorem test_wrBlock : nextWith (step (base.present 0x23DEADBEEF#38)) (fun t =>
    t.engine.blockW[3] == 0xDEADBEEF && t.engine.blockW[0] == 0x61626380 && t.engine.blockW[2] == 0) = true := by decide
theorem test_wrBlock_in_round : nextWith (step ((inRound 5).present 0x20000000FF#38)) (fun t =>
    t.engine.blockW[0] == 0xFF && t.engine.sw[15] == 0x61626380 && t.engine.rnd == 6) = true := by decide
theorem test_rdBlock : nextWith (step (base.present 0x0000000000#38)) (fun t => t.rdata == 0x61626380) = true := by decide
theorem test_rdBlock_unwritten : nextWith (step (base.present 0x0F00000000#38)) (fun t => t.rdata == 0) = true := by decide
theorem test_rdDigest : nextWith (step (base.present 0x1000000000#38)) (fun t => t.rdata == 0) = true := by decide
theorem test_rdDigest_in_final : nextWith (step (inFinal.present 0x1000000000#38)) (fun t =>
    t.rdata == 0 && t.engine.digest[0] == 0xD413CCCE) = true := by decide
theorem test_wrDigest : nextWith (step (base.present 0x30FFFFFFFF#38)) (fun t => t.engine == base.engine) = true := by decide
theorem test_wrCtrl_start : nextWith (step (base.present startWord)) (fun t =>
    t.engine.fsm == .round && t.engine.rnd == 0 && t.engine.work.h == 0x5BE0CD19 && t.engine.sw[0] == 0x61626380) = true := by
  decide
theorem test_wrCtrl_bit0_clear : nextWith (step (base.present 0x38FFFFFFFE#38)) (fun t => t.engine == base.engine) = true := by
  decide
theorem test_wrCtrl_busy : nextWith (step ((inRound 1).present startWord)) (fun t =>
    t.engine.fsm == .round && t.engine.rnd == 2) = true := by decide
theorem test_wrCtrl_in_final : nextWith (step (inFinal.present startWord)) (fun t =>
    t.engine.fsm == .idle && t.engine.done) = true := by decide
theorem test_rdCtrl : nextWith (step ((inRound 0).present 0x1800000000#38)) (fun t => t.rdata == 0) = true := by decide
theorem test_rdStatus_busy : nextWith (step ((inRound 1).present 0x1900000000#38)) (fun t => t.rdata == 1) = true := by decide
theorem test_rdStatus_done : nextWith (step (withResult.present 0x1900000000#38)) (fun t =>
    t.rdata == 2 && t.engine.done) = true := by decide
theorem test_wrStatus : nextWith (step (withResult.present 0x3900000000#38)) (fun t => t.engine.done) = true := by decide
theorem test_rdRsvdA : nextWith (step (withResult.present 0x1A00000000#38)) (fun t => t.rdata == 0) = true := by decide
theorem test_rdRsvdB : nextWith (step (withResult.present 0x1F00000000#38)) (fun t => t.rdata == 0) = true := by decide
theorem test_wrRsvdA : nextWith (step (base.present 0x3A12345678#38)) (fun t => t.engine == base.engine) = true := by decide
theorem test_wrRsvdB : nextWith (step (base.present 0x3FFFFFFFFF#38)) (fun t => t.engine == base.engine) = true := by decide

/-! ### Edges and reset (section 2.11; 41_datapath_functions.md R74; 70_reset_and_hazards.md R98, R100) -/

theorem test_round_zero_of_abc : nextWith (step (inRound 0)) (fun t => t.engine.work ==
    ⟨0x5D6AEBCD, 0x6A09E667, 0xBB67AE85, 0x3C6EF372, 0xFA2A4622, 0x510E527F, 0x9B05688C, 0x1F83D9AB⟩) = true := by decide
theorem test_last_round : nextWith (step (inRound 63)) (fun t => t.engine.fsm == .final && t.engine.rnd == 0) = true := by decide
theorem test_reset_discards_write : nextWith (step (given withResult ⟨true, some 0x2061626380#38⟩)) (fun t =>
    t.engine.blockW[0] == 0 && !t.engine.done) = true := by decide
theorem test_reset_discards_start : nextWith (step (given inFinal ⟨true, some startWord⟩)) (fun t =>
    t.engine.fsm == .idle && !t.engine.done && t.engine.digest[0] == 0) = true := by decide
theorem test_no_reset_refused : step (State.powerOn Engine.reset [PortCycle.command startWord] 0#32) =
    .refused .noResetSincePowerOn := rfl
theorem test_withFetchWord_without_reset : step ((State.powerOn Engine.reset [] 0#32).withFetchWord 40 0x3800000001) =
    .refused .noResetSincePowerOn := rfl
theorem test_withFetchWord : nextWith (step (State.reset.withFetchWord 40 0x3800000001)) (fun t =>
    t.engine.fsm == .round) = true := by decide

/-! ### Datapath: the examples of 41_datapath_functions.md -/

theorem test_rotr : rotr 0x12345678 7 = 0xF02468AC ∧ rotr 0x61626380 25 = 0xB131C030 := by decide
theorem test_shr : shr 0x12345678 3 = 0x02468ACF ∧ shr 0x80000000 3 = 0x10000000 := by decide
theorem test_sigmas : smallSigma0 0x61626380 = 0x940E90EF ∧ smallSigma1 0x61626380 = 0x7DA86405 ∧
    capSigma0 0x6A09E667 = 0xCE20B47E ∧ capSigma1 0x510E527F = 0x3587272B := by decide
theorem test_choose_majority : choose 0x510E527F 0x9B05688C 0x1F83D9AB = 0x1F85C98C ∧
    majority 0x6A09E667 0xBB67AE85 0x3C6EF372 = 0x3A6FE667 := by decide
theorem test_rom_ends : kAt 0 = 0x428A2F98 ∧ kAt 31 = 0x14292967 ∧ kAt 63 = 0xC67178F2 ∧ romK.length = 64 := by decide

/-- The block of V2, "abc" padded. -/
def abcBlock : Vector Word 16 := #v[0x61626380#32, 0, 0, 0, 0, 0, 0, 0, 0, 0, 0, 0, 0, 0, 0, 0x18#32]

/-- V2 of 95_test_vectors.md. -/
theorem test_compress_abc : compress abcBlock = #v[0xBA7816BF#32, 0x8F01CFEA#32, 0x414140DE#32, 0x5DAE2223#32,
    0xB00361A3#32, 0x96177A9C#32, 0xB410FF61#32, 0xF20015AD#32] := by decide +kernel

/-- V1 of 95_test_vectors.md. -/
theorem test_compress_zero : compress (Vector.replicate 16 0#32) = #v[0xDA5698BE#32, 0x17B9B469#32, 0x62335799#32,
    0x779FBECA#32, 0x8CE5D491#32, 0xC0D26243#32, 0xBAFEF9EA#32, 0x1837A9D8#32] := by decide +kernel

/-! ### Boundary and host notation (20_memory.md R31, R36; 30_encoding.md R49, R50) -/

theorem test_boundary_ok : RawAccess.toCommand ⟨true, 24, 0, 4, 1⟩ = .ok startWord := rfl
theorem test_boundary_refusals : RawAccess.toCommand ⟨true, 24, 1, 4, 1⟩ = .error .misaligned ∧
    RawAccess.toCommand ⟨true, 24, 0, 2, 1⟩ = .error .notOneWord ∧
    RawAccess.toCommand ⟨true, 32, 0, 4, 1⟩ = .error .outsideWindow ∧
    RawAccess.toCommand ⟨true, 24, 0, 4, 2 ^ 32⟩ = .error .dataTooWide := ⟨rfl, rfl, rfl, rfl⟩
theorem test_block_of_63_bytes : blockOfByteList (List.replicate 63 0x61#8) = .error .notSixtyFourBytes := rfl
theorem test_parse_start : parseLine ['W', 'R', ' ', 'c', 't', 'r', 'l', ',', ' ', '0', 'x', '1'] =
    .ok [.stmt (.wrCtrl 1)] := rfl
theorem test_parse_label_comment : parseLine ['L', ':', ' ', 'R', 'D', ' ', '[', '2', '6', ']', ' ', ';', 'x'] =
    .ok [.stmt (.rd 26)] := rfl
theorem test_parse_rejects : parseLine ['R', 'D', ' ', 'D', 'I', 'G', 'E', 'S', 'T', '8'] = .error .badRegister := rfl
theorem test_expand_compress : (Pseudo.compress abcBlock).expand.length = 27 := by decide

/-! ### Witnesses: for each statement with hypotheses, a concrete state and operands that meet all of them together -/

theorem startWord_isStart : (PortCycle.command startWord).IsStart :=
  ⟨rfl, startWord, 1#32, rfl, by decide, by decide⟩
theorem given_startsNow : (given base (PortCycle.command startWord)).StartsNow := ⟨rfl, rfl, startWord_isStart⟩
theorem given_noReset (n : Nat) : NoReset ((given base (PortCycle.command startWord)).inputs.take n) := by
  intro c hc
  obtain rfl : c = PortCycle.command startWord := by simpa [given] using List.mem_of_mem_take hc
  rfl

theorem witness_DecodeUndoesEncode : (Instr.rdRsvdA 27 5).wellFormed = true ∧ (Instr.wrRsvdB 28 0).wellFormed = true := by
  decide
theorem witness_NumbersOf38BitsDecode : 2 ^ 38 - 1 < 2 ^ 38 ∧ 2 ^ 38 ≤ 2 ^ 38 := by decide
theorem witness_WrBlockStoresTheWord : (0x2FFFFFFFFF#38 &&& 0x3000000000#38) = 0x2000000000#38 ∧ (15 : BitVec 4) ≠ 0 := by
  decide
theorem witness_RdBlockReturnsTheWord : (0x0F00000000#38 &&& 0x3000000000#38) = 0#38 := by decide
theorem witness_RdDigestReturnsTheWord : (0x17FFFFFFFF#38 &&& 0x3800000000#38) = 0x1000000000#38 ∧
    (given inFinal (.command 0x1700000000#38)).resetDone = true ∧ decodeCommand 0x1700000000#38 = .rdDigest 7 0 := by decide
theorem witness_WrDigestHasNoEffect : (0x37FFFFFFFF#38 &&& 0x3800000000#38) = 0x3000000000#38 := by decide
theorem witness_WrCtrl_accepted : startWord &&& 0x3F00000000#38 = 0x3800000000#38 ∧
    (0xFFFFFFFF#32).getLsbD 0 = true ∧ base.engine.fsm = .idle := by decide
theorem witness_WrCtrl_ignored : (0xFFFFFFFE#32).getLsbD 0 = false ∧ inFinal.engine.fsm ≠ .idle ∧
    (1#32).getLsbD 0 = (0xFFFFFFFF#32).getLsbD 0 := by decide
theorem witness_RdCtrlReturnsZero : (0x1800000000#38 &&& 0x3F00000000#38) = 0x1800000000#38 := by decide
theorem witness_RdStatusReturnsDoneAndBusy : (0x1900000000#38 &&& 0x3F00000000#38) = 0x1900000000#38 := by decide
theorem witness_WrStatusHasNoEffect : (0x3900000000#38 &&& 0x3F00000000#38) = 0x3900000000#38 := by decide
theorem witness_RdRsvdReturnsZero : (0x1B00000000#38 &&& 0x3E00000000#38) = 0x1A00000000#38 ∧
    (0x1C00000000#38 &&& 0x3C00000000#38) = 0x1C00000000#38 := by decide
theorem witness_WrRsvdHasNoEffect : (0x3B00000000#38 &&& 0x3E00000000#38) = 0x3A00000000#38 ∧
    (0x3F00000000#38 &&& 0x3C00000000#38) = 0x3C00000000#38 := by decide
theorem witness_NothingFaults : State.reset.resetDone = true := rfl
theorem witness_ReadsReturnTheWindow : (Instr.rdRsvdB 31 0).wellFormed = true ∧ (Instr.rdRsvdB 31 0).isRead = true ∧
    (given base (.command (encode (.rdRsvdB 31 0)))).resetDone = true ∧
    (given base (.command (encode (.rdRsvdB 31 0)))).inputs = .command (encode (.rdRsvdB 31 0)) :: [] := by decide
theorem witness_OnlyBlockWritesAndStarts : ∃ t, exec (.wrCtrl 1) base = .next t := ⟨_, rfl⟩
theorem witness_StepRunsTheDecodedTransaction : (given base (.command (encode (.wrBlock 15 7)))).resetDone = true ∧
    (Instr.wrBlock 15 7).wellFormed = true ∧
    (given base (.command (encode (.wrBlock 15 7)))).inputs = .command (encode (.wrBlock 15 7)) :: [] := by decide
theorem witness_StepRunsTheFetchedWord : 0x3800000001 < 2 ^ 38 ∧ decodeTableWord 40 0x3800000001 = some (.wrCtrl 1) ∧
    State.reset.resetDone = true ∧ (State.powerOn Engine.reset [] 0#32).resetDone = false := by
  decide
theorem witness_IdleCycle : (inRound 0).resetDone = true ∧ (inRound 0).nextCycle = ⟨false, none⟩ ∧
    base.nextCycle = ⟨false, none⟩ ∧ base.engine.fsm = .idle := by decide
theorem witness_IdleEngineKeepsItsResult : withResult.resetDone = true ∧ withResult.engine.fsm = .idle ∧
    withResult.nextCycle.rst = false ∧ ¬ withResult.nextCycle.IsStart :=
  ⟨rfl, rfl, rfl, fun ⟨_, _, _, h, _⟩ => by cases h⟩
theorem witness_AcceptedStart : ∃ s : State, s.StartsNow := ⟨_, given_startsNow⟩
theorem witness_RoundEdge_first : (inRound 0).resetDone = true ∧ (inRound 0).engine.fsm = .round ∧
    (inRound 0).nextCycle.rst = false := by decide
theorem witness_RoundEdge_last : (inRound 63).engine.fsm = .round ∧ (inRound 63).engine.rnd.toNat = 63 ∧
    (inRound 63).nextCycle.rst = false ∧ (inRound 63).resetDone = true := by decide
theorem witness_FinalEdge : inFinal.resetDone = true ∧ inFinal.engine.fsm = .final ∧ inFinal.nextCycle.rst = false := by
  decide
theorem witness_Transitions_round : (∃ t, step (inRound 63) = .next t) ∧ (inRound 63).nextCycle.rst = false ∧
    (inRound 62).engine.rnd.toNat < 63 := ⟨⟨_, rfl⟩, rfl, by decide⟩
theorem witness_Transitions_start : (∃ t, step (given base (PortCycle.command startWord)) = .next t) ∧
    (given base (PortCycle.command startWord)).StartsNow ∧
    (given base (PortCycle.command startWord)).nextCycle.rst = false := ⟨⟨_, rfl⟩, given_startsNow, rfl⟩
theorem witness_Transitions_reset : (∃ t, step (given inFinal PortCycle.reset) = .next t) ∧
    (given inFinal PortCycle.reset).nextCycle.rst = true := ⟨⟨_, rfl⟩, rfl⟩
theorem witness_Transitions_final : (∃ t, step inFinal = .next t) ∧ inFinal.nextCycle.rst = false ∧
    inFinal.engine.fsm = .final := ⟨⟨_, rfl⟩, rfl, rfl⟩
theorem witness_Transitions_idle : (∃ t, step withResult = .next t) ∧ ¬ withResult.StartsNow ∧
    withResult.engine.fsm ≠ .final ∧ withResult.nextCycle.rst = false :=
  ⟨⟨_, rfl⟩, fun ⟨_, _, _, _, _, h, _⟩ => (nomatch h), by decide, rfl⟩
theorem witness_BlockWrite : ∃ s : State, s.resetDone = true ∧ s.nextCycle.rst = false ∧
    s.nextCycle.txn = some 0x2F00000007#38 ∧ decodeCommand 0x2F00000007#38 = .wrBlock 15 7 :=
  ⟨given (inRound 63) (.command 0x2F00000007#38), rfl, rfl, rfl, by decide⟩
theorem witness_NoBlockWrite : base.resetDone = true ∧ base.nextCycle.rst = false ∧
    ∀ cw i v, base.nextCycle.txn = some cw → decodeCommand cw ≠ .wrBlock i v :=
  ⟨rfl, rfl, fun _ _ _ h => by cases h⟩
theorem witness_Isolation : (inRound 3).resetDone = true ∧ (inRound 3).engine.busy = true ∧
    (inRound 3).engine.SameButBlock (((inRound 3).engine).setBlockWord 0 9) ∧ (inRound 3).nextCycle.rst = false ∧
    (inRound 3).engine.blockW ≠ (((inRound 3).engine).setBlockWord 0 9).blockW :=
  ⟨rfl, rfl, ⟨rfl, rfl, rfl, rfl, rfl, rfl⟩, rfl, by decide⟩
theorem witness_Isolation_exec : (inRound 3).engine.busy = true ∧ ∃ t, exec (.wrBlock 2 7) (inRound 3) = .next t :=
  ⟨rfl, _, rfl⟩
theorem witness_StartWhileBusy : inFinal.resetDone = true ∧ inFinal.engine.busy = true ∧
    (PortCycle.command startWord).IsStart := ⟨rfl, rfl, startWord_isStart⟩
theorem witness_ControlIsIndependentOfData : ∃ s s' t t', s.nextCycle = s'.nextCycle ∧ s.engine.fsm = s'.engine.fsm ∧
    s.engine.rnd = s'.engine.rnd ∧ s.engine.done = s'.engine.done ∧ s.engine.blockW ≠ s'.engine.blockW ∧
    step s = .next t ∧ step s' = .next t' :=
  ⟨base, State.reset, _, _, rfl, rfl, rfl, rfl, by decide, rfl, rfl⟩
theorem witness_ResetEdge : (given (inRound 10) PortCycle.reset).nextCycle.rst = true := rfl
theorem witness_RunWithoutReset : (State.powerOn Engine.reset [] 0#32).resetDone = false ∧
    (State.powerOn Engine.reset [] 0#32).nextCycle.rst = false ∧
    (State.powerOn Engine.reset [.reset] 0#32).nextCycle.rst = true := ⟨rfl, rfl, rfl⟩
theorem witness_ControlInvariant : (inRound 63).engine.ControlOk ∧ ∃ t, step (inRound 63) = .next t :=
  ⟨⟨fun h => absurd rfl h, fun _ => rfl⟩, ⟨_, rfl⟩⟩
theorem witness_Status_busy : inFinal.engine.ControlOk ∧ inFinal.engine.fsm ≠ .idle :=
  ⟨⟨fun _ => rfl, fun _ => rfl⟩, by decide⟩
theorem witness_Status_done : withResult.engine.ControlOk ∧ withResult.engine.fsm = .idle ∧ withResult.engine.done = true :=
  ⟨⟨fun _ => rfl, fun h => by cases h⟩, rfl, rfl⟩
theorem witness_Status_fresh : base.engine.ControlOk ∧ base.engine.fsm = .idle ∧ base.engine.done = false :=
  ⟨⟨fun _ => rfl, fun h => by cases h⟩, rfl, rfl⟩
theorem witness_DatapathInvariant : base.engine.DatapathOk ∧ ∃ t, step base = .next t :=
  ⟨fun h => (nomatch (show false = true from h)), ⟨_, rfl⟩⟩
theorem witness_DatapathInvariant_final :
    Engine.DatapathOk { Engine.reset with fsm := .final, work := workAfter abcBlock 64 } := ⟨abcBlock, rfl⟩
theorem witness_Window : (given base (PortCycle.command startWord)).StartsNow ∧ 63 ≤ 63 ∧
    NoReset ((given base (PortCycle.command startWord)).inputs.take (63 + 1)) :=
  ⟨given_startsNow, by decide, given_noReset _⟩
theorem witness_Compress : ∃ s : State, s.StartsNow ∧ NoReset (s.inputs.take 66) :=
  ⟨_, given_startsNow, given_noReset _⟩
theorem witness_Timing (n : Nat) : (given base (PortCycle.command startWord)).StartsNow ∧
    NoReset ((given base (PortCycle.command startWord)).inputs.take (n + 1)) ∧
    ∀ c ∈ ((given base (PortCycle.command startWord)).inputs.take (n + 1)).drop 66, ¬ c.IsStart := by
  refine ⟨given_startsNow, given_noReset _, fun c hc => ?_⟩
  have h : ((given base (PortCycle.command startWord)).inputs.take (n + 1)).drop 66 = [] := by simp [given]
  rw [h] at hc
  cases hc
theorem witness_DigestDependsOnTheBlockOnly : ∃ s s' : State, s.StartsNow ∧ s'.StartsNow ∧
    s.engine.blockW = s'.engine.blockW ∧ NoReset (s.inputs.take 66) ∧ NoReset (s'.inputs.take 66) ∧ s ≠ s' :=
  ⟨given base (PortCycle.command startWord), given withResult (PortCycle.command startWord), given_startsNow,
    ⟨rfl, rfl, startWord_isStart⟩, rfl, given_noReset _, given_noReset _, by decide⟩
theorem witness_Rotation : (32 : Nat) ≤ 32 ∧ (31 : Nat) < 32 ∧ rotr 0x80000001#32 32 = 0x80000001#32 := by decide
theorem witness_Shift_in : (21 : Nat) < 32 ∧ 21 + 10 ≤ 31 ∧ ¬ 22 + 10 ≤ 31 := by decide
theorem witness_Schedule : (15 : Nat) < 16 ∧ 16 ≤ 63 ∧ scheduleAt abcBlock 16 = 0x61626380#32 := by decide +kernel
theorem witness_BlockBytes : (15 : Nat) < 16 ∧ (3 : Nat) < 4 ∧
    (blockOfBytes (Vector.ofFn fun k : Fin 64 => BitVec.ofNat 8 k.val))[15] = 0x3C3D3E3F#32 := by decide
theorem witness_DigestBytes : (7 : Nat) < 8 ∧ (bytesOfDigest #v[0, 0, 0, 0, 0, 0, 0, 0xF20015AD#32])[28] = 0xF2#8 := by decide
theorem witness_Boundary : RawAccess.toCommand ⟨false, 31, 0, 4, 0⟩ = .ok 0x1F00000000#38 ∧
    (List.replicate 65 (0#8)).length ≠ 64 ∧ (List.replicate 64 (0#8)).length = 64 := ⟨rfl, by decide, by decide⟩
theorem witness_Platform : (∃ q, Platform.step [base, inRound 0] = .next q) ∧
    ∀ s ∈ [base, inRound 0], s.resetDone = true := ⟨⟨_, rfl⟩, by simp [base, inRound, State.reset]⟩
theorem witness_Statements : isReservedA 27 = true ∧ isReservedB 28 = true ∧
    (AsmStatement.wrRsvd 26 3).wellFormed = true ∧ (AsmStatement.wrRsvd 31 3).wellFormed = true ∧
    AsmStatement.rdStatus.assemble = some 0x1900000000#38 := by decide
theorem witness_WaitDone_busy : (inRound 0).resetDone = true ∧ (inRound 0).engine.busy = true ∧
    (inRound 0).engine.ControlOk := ⟨rfl, rfl, fun h => absurd rfl h, fun _ => rfl⟩
theorem witness_WaitDone_idle : withResult.resetDone = true ∧ withResult.engine.fsm = .idle ∧
    withResult.engine.done = true ∧ base.resetDone = true ∧ base.engine.fsm = .idle ∧ base.engine.done = false := by decide
theorem witness_LoadBlock : inFinal.resetDone = true ∧
    (false :: (List.replicate 8 true ++ false :: List.replicate 8 true)).count true = 16 := ⟨rfl, by decide⟩

end Sys2Proof.Tests
end

section
/-! The message schedule of the reference (41_datapath_functions.md R73): every initial part of it agrees with the
whole, which gives the block's words at the start and the recurrence after them. -/

namespace Sys2Proof.Machine

@[simp] theorem scheduleList_length (block : Vector Word 16) (n : Nat) : (scheduleList block n).length = n + 16 := by
  induction n with
  | zero => simp [scheduleList]
  | succ n ih => simp [scheduleList, ih]

theorem scheduleList_succ_getD (block : Vector Word 16) {n i : Nat} (h : i < n + 16) :
    (scheduleList block (n + 1)).getD i 0#32 = (scheduleList block n).getD i 0#32 :=
  List.getD_append _ _ _ _ (by simpa using h)

theorem scheduleList_succ_getD_last (block : Vector Word 16) (n : Nat) :
    (scheduleList block (n + 1)).getD (n + 16) 0#32 = nextScheduleWord n (scheduleList block n) := by
  rw [scheduleList, List.getD_append_right _ _ _ _ (by simp)]
  simp

/-- A word of the schedule can be read in any part of it that reaches so far: later words do not change it. -/
theorem scheduleAt_eq_getD (block : Vector Word 16) {n i : Nat} (hn : n ≤ 48) (hi : i < n + 16) :
    scheduleAt block i = (scheduleList block n).getD i 0#32 := by
  induction hn using Nat.decreasingInduction with
  | self => rfl
  | of_succ n _ ih => rw [ih (by omega), scheduleList_succ_getD block hi]

theorem scheduleAt_block (block : Vector Word 16) {i : Nat} (h : i < 16) : scheduleAt block i = block[i] := by
  rw [scheduleAt_eq_getD block (Nat.zero_le 48) (by omega)]
  simp [scheduleList, h]

theorem scheduleAt_add_sixteen (block : Vector Word 16) {n : Nat} (h : n < 48) :
    scheduleAt block (n + 16) = scheduleWord (scheduleAt block (n + 14)) (scheduleAt block (n + 9))
      (scheduleAt block (n + 1)) (scheduleAt block n) := by
  have tap (k : Nat) (hk : k < 16) : scheduleAt block (n + k) = (scheduleList block n).getD (n + k) 0#32 :=
    scheduleAt_eq_getD block h.le (by omega)
  have tap0 : scheduleAt block n = (scheduleList block n).getD n 0#32 := tap 0 (by omega)
  rw [scheduleAt_eq_getD block (n := n + 1) h (by omega), scheduleList_succ_getD_last,
    tap 14 (by omega), tap 9 (by omega), tap 1 (by omega), tap0, nextScheduleWord]

end Sys2Proof.Machine
end

section
/-! The engine follows the reference: START puts it at round 0 of the captured block, a ROUND edge takes it one round
further, and the FINAL edge delivers `compress` (42_sequencer.md R79 to R85). -/

namespace Sys2Proof.Machine

/-! ### The transaction of a cycle -/

/-- A cycle's transaction reaches `BLOCK_W` alone, or is a START that an idle engine accepts. -/
theorem cycleEngine_cases (c : PortCycle) (e : Engine) :
    (cycleEngine c e).SameButBlock e ∨ e.fsm = .idle ∧ cycleEngine c e = e.start := by
  unfold cycleEngine
  cases c.txn with
  | none => exact .inl (.refl e)
  | some cw =>
    show (transactionEngine (decodeCommand cw) e).SameButBlock e ∨
      e.fsm = .idle ∧ transactionEngine (decodeCommand cw) e = e.start
    cases decodeCommand cw with
    | wrBlock i v => exact .inl (e.setBlockWord_sameButBlock i v)
    | wrCtrl d =>
      by_cases h : acceptsStart d e = true
      · have hidle : e.fsm = .idle := by simp_all [acceptsStart]
        exact .inr ⟨hidle, by simp [transactionEngine, h]⟩
      · exact .inl (by simp [transactionEngine, h, Engine.SameButBlock.refl])
    | _ => exact .inl (.refl e)

theorem cycleEngine_sameButBlock_of_busy (c : PortCycle) {e : Engine} (h : e.fsm ≠ .idle) :
    (cycleEngine c e).SameButBlock e :=
  (cycleEngine_cases c e).resolve_right fun hs => h hs.1

/-! ### One edge against the reference -/

theorem Engine.start_roundOf (e : Engine) : e.start.RoundOf e.blockW :=
  ⟨rfl, fun k hk _ => by simp [scheduleAt_block e.blockW hk]⟩

section
variable {x : Engine} {block : Vector Word 16}

theorem roundEdge_work_of_roundOf (h : x.RoundOf block) (y : Engine) :
    (roundEdge x y).work = workAfter block (x.rnd.toNat + 1) := by
  obtain ⟨hwork, hsw⟩ := h
  have hw : x.sw[0] = scheduleAt block x.rnd.toNat := hsw 0 (by omega) (by have := x.rnd.isLt; omega)
  simp [workAfter, hwork, hw]

theorem shiftWindow_of_roundOf (h : x.RoundOf block) {k : Nat} (hk : k < 16) (hr : x.rnd.toNat + 1 + k ≤ 63) :
    (shiftWindow x.sw)[k] = scheduleAt block (x.rnd.toNat + 1 + k) := by
  obtain ⟨-, hsw⟩ := h
  obtain hlow | rfl : k < 15 ∨ k = 15 := by omega
  · rw [shiftWindow_lower _ _ hlow, hsw (k + 1) (by omega) (by omega), Nat.add_right_comm, Nat.add_assoc]
  · rw [shiftWindow_top, hsw 14 (by omega) (by omega), hsw 9 (by omega) (by omega), hsw 1 (by omega) (by omega),
      hsw 0 (by omega) (by omega)]
    exact (scheduleAt_add_sixteen block (by omega)).symm

/-- Before the last round, a ROUND edge takes the engine one round further on the same block. -/
theorem roundEdge_roundOf (h : x.RoundOf block) (hr : x.rnd ≠ 63#6) (y : Engine) :
    (roundEdge x y).RoundOf block := by
  have hlt : x.rnd.toNat < 63 := by bv_omega
  have hrnd : (roundEdge x y).rnd.toNat = x.rnd.toNat + 1 := by
    rw [roundEdge_rnd, BitVec.toNat_add]
    exact Nat.mod_eq_of_lt (Nat.succ_lt_succ hlt)
  refine ⟨by rw [hrnd, roundEdge_work_of_roundOf h], fun k hk hle => ?_⟩
  rw [hrnd] at hle ⊢
  exact shiftWindow_of_roundOf h hk hle

end

/-! ### The datapath invariant, by the state of the sequencer -/

theorem Engine.datapathOk_idle {e : Engine} (h : e.fsm = .idle) :
    e.DatapathOk ↔ (e.done = true → ∃ block, e.digest = compress block) := by
  simp [Engine.DatapathOk, h]

theorem Engine.datapathOk_round {e : Engine} (h : e.fsm = .round) : e.DatapathOk ↔ ∃ block, e.RoundOf block := by
  simp [Engine.DatapathOk, h]

theorem Engine.datapathOk_final {e : Engine} (h : e.fsm = .final) :
    e.DatapathOk ↔ ∃ block, e.work = workAfter block 64 := by
  simp [Engine.DatapathOk, h]

/-- `BLOCK_W` is no part of the invariant. -/
theorem Engine.SameButBlock.datapathOk_iff {x y : Engine} (h : x.SameButBlock y) : x.DatapathOk ↔ y.DatapathOk := by
  obtain ⟨hdigest, hdone, hfsm, hrnd, hwork, hsw⟩ := h
  simp only [Engine.DatapathOk, Engine.RoundOf, hdigest, hdone, hfsm, hrnd, hwork, hsw]

theorem Engine.start_datapathOk (e : Engine) : e.start.DatapathOk :=
  (Engine.datapathOk_round e.start_fsm).2 ⟨_, e.start_roundOf⟩

theorem cycleEngine_datapathOk (c : PortCycle) {e : Engine} (h : e.DatapathOk) : (cycleEngine c e).DatapathOk := by
  obtain hsame | ⟨-, hstart⟩ := cycleEngine_cases c e
  · exact hsame.datapathOk_iff.2 h
  · exact hstart ▸ e.start_datapathOk

theorem roundEdge_datapathOk {x y : Engine} (hx : x.fsm = .round) (hy : y.fsm = .round) (h : x.DatapathOk) :
    (roundEdge x y).DatapathOk := by
  obtain ⟨block, hblock⟩ := (Engine.datapathOk_round hx).1 h
  by_cases hr : x.rnd = 63#6
  · have hwork : (roundEdge x y).work = workAfter block 64 := by
      rw [roundEdge_work_of_roundOf hblock, hr]
      rfl
    exact (Engine.datapathOk_final (by simp [hr])).2 ⟨block, hwork⟩
  · exact (Engine.datapathOk_round (by simp [hr, hy])).2 ⟨block, roundEdge_roundOf hblock hr y⟩

theorem finalEdge_datapathOk {x : Engine} (hx : x.fsm = .final) (h : x.DatapathOk) (y : Engine) :
    (finalEdge x y).DatapathOk := by
  obtain ⟨block, hwork⟩ := (Engine.datapathOk_final hx).1 h
  exact (Engine.datapathOk_idle rfl).2 fun _ => ⟨block, by rw [finalEdge_digest, hwork, compress]⟩

/-- The transaction of a cycle and the sequencer's step, taken together, keep the invariant. -/
theorem sequencerStep_cycleEngine_datapathOk (c : PortCycle) {e : Engine} (h : e.DatapathOk) :
    (sequencerStep e (cycleEngine c e)).DatapathOk := by
  cases hf : e.fsm with
  | idle =>
    rw [sequencerStep_idle _ hf]
    exact cycleEngine_datapathOk c h
  | round =>
    obtain ⟨-, -, hfsm, -⟩ := cycleEngine_sameButBlock_of_busy c (e := e) (by simp [hf])
    rw [sequencerStep_round _ hf]
    exact roundEdge_datapathOk hf (hfsm.trans hf) h
  | final =>
    rw [sequencerStep_final _ hf]
    exact finalEdge_datapathOk hf h _

theorem resetEdge_datapathOk (s : State) : (resetEdge s).engine.DatapathOk :=
  (Engine.datapathOk_idle (resetEdge_fsm s)).2 fun hdone => by simp at hdone

/-- Settles O39: a reset edge leaves no result and no computation; any other edge follows the reference. -/
theorem datapathInvariantIsKept : Obligations.DatapathInvariantIsKept := by
  intro s t hok hstep
  obtain ⟨-, rfl⟩ | ⟨-, -, hengine, -, -⟩ := step_cases hstep
  · exact resetEdge_datapathOk _
  · exact hengine ▸ sequencerStep_cycleEngine_datapathOk _ hok

end Sys2Proof.Machine
end

section
/-! The control registers FSM, RND and DONE, and the digest, over one edge (10_state.md R11, R13, R17 to R19): who writes
them, and that RND is 0 outside ROUND and DONE is 0 while busy. -/

namespace Sys2Proof.Machine

/-! ### When the transaction of a cycle is a START -/

theorem cycleEngine_of_isStart {c : PortCycle} (hc : c.IsStart) {e : Engine} (h : e.fsm = .idle) :
    cycleEngine c e = e.start := by
  obtain ⟨-, cw, d, htxn, hdecode, hbit⟩ := hc
  simp [cycleEngine, htxn, hdecode, transactionEngine, acceptsStart, hbit, h]

/-- A transaction that is no START an idle engine accepts reaches `BLOCK_W` alone. -/
theorem cycleEngine_sameButBlock {c : PortCycle} (hr : c.rst = false) {e : Engine}
    (h : ¬ (e.fsm = .idle ∧ c.IsStart)) : (cycleEngine c e).SameButBlock e := by
  unfold cycleEngine
  cases htxn : c.txn with
  | none => exact .refl e
  | some cw =>
    show (transactionEngine (decodeCommand cw) e).SameButBlock e
    cases hdecode : decodeCommand cw with
    | wrBlock i v => exact e.setBlockWord_sameButBlock i v
    | wrCtrl d =>
      have hrefused : acceptsStart d e = false := by
        by_contra haccepts
        obtain ⟨hbit, hidle⟩ : startBit d = true ∧ e.fsm = .idle := by simpa [acceptsStart] using haccepts
        exact h ⟨hidle, hr, cw, d, htxn, hdecode, hbit⟩
      simp [transactionEngine, hrefused, Engine.SameButBlock.refl]
    | _ => exact .refl e

/-- No transaction writes the digest, a START neither (R11). -/
@[simp] theorem cycleEngine_digest (c : PortCycle) (e : Engine) : (cycleEngine c e).digest = e.digest := by
  obtain ⟨hdigest, -⟩ | ⟨-, hstart⟩ := cycleEngine_cases c e
  · exact hdigest
  · simp [hstart]

/-! ### What the sequencer writes of DONE and the digest -/

theorem sequencerStep_done (x y : Engine) :
    (sequencerStep x y).done = if x.fsm = .final then true else y.done := by
  cases hf : x.fsm with
  | idle => simp [sequencerStep_idle y hf]
  | round => simp [sequencerStep_round y hf]
  | final => simp [sequencerStep_final y hf]

theorem sequencerStep_digest (x y : Engine) :
    (sequencerStep x y).digest = if x.fsm = .final then finalize x.work else y.digest := by
  cases hf : x.fsm with
  | idle => simp [sequencerStep_idle y hf]
  | round => simp [sequencerStep_round y hf]
  | final => simp [sequencerStep_final y hf]

/-- Settles O28: the FINAL edge is the sequencer's only write of DONE and DIGEST, and an accepted START the only
transaction that writes DONE. -/
theorem doneAndDigestChangeOnlyWhereTheyMay : Obligations.DoneAndDigestChangeOnlyWhereTheyMay := by
  intro s t hstep
  obtain ⟨hrst, rfl⟩ | ⟨hrst, hreset, hengine, -, -⟩ := step_cases hstep
  · exact ⟨fun _ => rfl, fun hr => by simp [hrst] at hr⟩
  · refine ⟨fun hr => by simp [hrst] at hr, fun _ => ⟨fun hfinal => ?_, fun hstart => ?_, fun hfinal hstart => ?_,
      fun hfinal => ?_⟩⟩
    · simp [hengine, sequencerStep_done, hfinal]
    · obtain ⟨-, hidle, hcycle⟩ := hstart
      simp [hengine, sequencerStep_done, hidle, cycleEngine_of_isStart hcycle hidle]
    · have hnoStart : ¬ (s.engine.fsm = .idle ∧ s.nextCycle.IsStart) := fun h => hstart ⟨hreset, h⟩
      obtain ⟨-, hdone, -⟩ := cycleEngine_sameButBlock hrst hnoStart
      simp [hengine, sequencerStep_done, hfinal, hdone]
    · simp [hengine, sequencerStep_digest, hfinal]

/-! ### The control invariant, by the state of the sequencer -/

theorem Engine.controlOk_idle {e : Engine} (h : e.fsm = .idle) : e.ControlOk ↔ e.rnd = 0#6 := by
  simp [Engine.ControlOk, Engine.busy, h]

theorem Engine.controlOk_round {e : Engine} (h : e.fsm = .round) : e.ControlOk ↔ e.done = false := by
  simp [Engine.ControlOk, Engine.busy, h]

theorem Engine.controlOk_final {e : Engine} (h : e.fsm = .final) : e.ControlOk ↔ e.rnd = 0#6 ∧ e.done = false := by
  simp [Engine.ControlOk, Engine.busy, h]

/-- `BLOCK_W` is no part of the invariant. -/
theorem Engine.SameButBlock.controlOk_iff {x y : Engine} (h : x.SameButBlock y) : x.ControlOk ↔ y.ControlOk := by
  obtain ⟨-, hdone, hfsm, hrnd, -, -⟩ := h
  simp only [Engine.ControlOk, Engine.busy, hdone, hfsm, hrnd]

theorem Engine.start_controlOk (e : Engine) : e.start.ControlOk :=
  (Engine.controlOk_round e.start_fsm).2 e.start_done

theorem cycleEngine_controlOk (c : PortCycle) {e : Engine} (h : e.ControlOk) : (cycleEngine c e).ControlOk := by
  obtain hsame | ⟨-, hstart⟩ := cycleEngine_cases c e
  · exact hsame.controlOk_iff.2 h
  · exact hstart ▸ e.start_controlOk

/-- The edge that leaves ROUND takes RND from 63 round to 0. -/
theorem roundEdge_controlOk {x y : Engine} (hy : y.fsm = .round) (h : y.ControlOk) : (roundEdge x y).ControlOk := by
  have hdone : y.done = false := (Engine.controlOk_round hy).1 h
  by_cases hr : x.rnd = 63#6
  · exact (Engine.controlOk_final (by simp [hr])).2 ⟨by simp [hr], hdone⟩
  · exact (Engine.controlOk_round (by simp [hr, hy])).2 hdone

theorem finalEdge_controlOk {y : Engine} (hy : y.fsm = .final) (h : y.ControlOk) (x : Engine) :
    (finalEdge x y).ControlOk := by
  obtain ⟨hrnd, -⟩ := (Engine.controlOk_final hy).1 h
  exact (Engine.controlOk_idle rfl).2 hrnd

/-- The transaction of a cycle and the sequencer's step, taken together, keep the invariant. -/
theorem sequencerStep_cycleEngine_controlOk (c : PortCycle) {e : Engine} (h : e.ControlOk) :
    (sequencerStep e (cycleEngine c e)).ControlOk := by
  have hafter : (cycleEngine c e).ControlOk := cycleEngine_controlOk c h
  cases hf : e.fsm with
  | idle =>
    rw [sequencerStep_idle _ hf]
    exact hafter
  | round =>
    obtain ⟨-, -, hfsm, -⟩ := cycleEngine_sameButBlock_of_busy c (e := e) (by simp [hf])
    rw [sequencerStep_round _ hf]
    exact roundEdge_controlOk (hfsm.trans hf) hafter
  | final =>
    obtain ⟨-, -, hfsm, -⟩ := cycleEngine_sameButBlock_of_busy c (e := e) (by simp [hf])
    rw [sequencerStep_final _ hf]
    exact finalEdge_controlOk (hfsm.trans hf) hafter e

theorem resetEdge_controlOk (s : State) : (resetEdge s).engine.ControlOk :=
  (Engine.controlOk_idle (resetEdge_fsm s)).2 (resetEdge_rnd s)

/-- Settles O36: a reset edge leaves RND and DONE at 0; any other edge keeps the invariant. -/
theorem controlInvariantIsKept : Obligations.ControlInvariantIsKept := by
  intro s t hok hstep
  obtain ⟨-, rfl⟩ | ⟨-, -, hengine, -, -⟩ := step_cases hstep
  · exact resetEdge_controlOk _
  · exact hengine ▸ sequencerStep_cycleEngine_controlOk _ hok

/-- Settles O37: the engine right after reset is idle, with RND at 0. -/
theorem controlInvariantAtReset : Obligations.ControlInvariantAtReset :=
  (Engine.controlOk_idle (e := State.reset.engine) rfl).2 rfl

/-! ### The STATUS word -/

/-- STATUS is twice DONE plus BUSY (R13). -/
theorem Engine.statusWord_eq (e : Engine) :
    e.statusWord = if e.busy then (if e.done then 3#32 else 1#32) else (if e.done then 2#32 else 0#32) := by
  unfold Engine.statusWord
  cases e.busy <;> cases e.done <;> rfl

/-- Settles O38: DONE is 0 while busy, so bits 1 and 0 of STATUS are never both set. -/
theorem statusIsNeverThree : Obligations.StatusIsNeverThree := by
  rintro e ⟨-, hdone⟩
  by_cases hidle : e.fsm = .idle
  · have hbusy : e.busy = false := by simp [Engine.busy, hidle]
    cases hd : e.done <;> simp [Engine.statusWord_eq, hbusy, hidle, hd]
  · have hbusy : e.busy = true := e.busy_iff.2 hidle
    simp [Engine.statusWord_eq, hbusy, hidle, hdone hbusy]

end Sys2Proof.Machine
end

section
/-! The three fields of a packed command word, and the decoder on the word of a well-formed transaction
(30_encoding.md R41 to R43). -/

namespace Sys2Proof

/-! ### The fields of a packed word -/

section
variable (we : Bool) (idx : WindowIndex) (d : Word)

@[simp] theorem cmdWe_packCommand : cmdWe (packCommand we idx d) = we := by
  rw [cmdWe, packCommand_bit]
  simp

@[simp] theorem cmdIdx_packCommand : cmdIdx (packCommand we idx d) = idx := by
  have hskip : cmdIdx (packCommand we idx d) = (BitVec.ofBool we ++ idx).extractLsb' 0 5 :=
    BitVec.extractLsb'_append_eq_of_le (start := 32) le_rfl
  exact hskip.trans BitVec.extractLsb'_append_eq_right

@[simp] theorem cmdData_packCommand : cmdData (packCommand we idx d) = d :=
  BitVec.extractLsb'_append_eq_right

theorem decodeCommand_packCommand :
    decodeCommand (packCommand we idx d) = if we then decodeWrite idx d else decodeRead idx d := by
  simp [decodeCommand]

end

/-! ### The window indices of the rows -/

@[simp] theorem isBlockIdx_blockIdx : ∀ i, isBlockIdx (blockIdx i) = true := by decide
@[simp] theorem blockField_blockIdx : ∀ i, blockField (blockIdx i) = i := by decide
@[simp] theorem isBlockIdx_digestIdx : ∀ j, isBlockIdx (digestIdx j) = false := by decide
@[simp] theorem isDigestIdx_digestIdx : ∀ j, isDigestIdx (digestIdx j) = true := by decide
@[simp] theorem digestField_digestIdx : ∀ j, digestField (digestIdx j) = j := by decide
@[simp] theorem isBlockIdx_ctrl : isBlockIdx 24#5 = false := by decide
@[simp] theorem isDigestIdx_ctrl : isDigestIdx 24#5 = false := by decide
@[simp] theorem isBlockIdx_status : isBlockIdx 25#5 = false := by decide
@[simp] theorem isDigestIdx_status : isDigestIdx 25#5 = false := by decide

/-- The decoder reaches row (a) of the reserved rows at the indices its transactions carry. -/
theorem decoderTests_of_isReservedA : ∀ idx : WindowIndex, isReservedA idx = true → isBlockIdx idx = false ∧
    isDigestIdx idx = false ∧ idx ≠ 24#5 ∧ idx ≠ 25#5 ∧ isRsvdAIdx idx = true := by decide

/-- At the indices of row (b) every test of the decoder fails. -/
theorem decoderTests_of_isReservedB : ∀ idx : WindowIndex, isReservedB idx = true → isBlockIdx idx = false ∧
    isDigestIdx idx = false ∧ idx ≠ 24#5 ∧ idx ≠ 25#5 ∧ isRsvdAIdx idx = false := by decide

theorem toNat_ge_of_reserved : ∀ idx : WindowIndex, isReservedA idx = true ∨ isReservedB idx = true →
    26 ≤ idx.toNat := by decide

/-! ### The decoder after the encoder -/

theorem decodeCommand_encode {i : Instr} (h : i.wellFormed = true) : decodeCommand (encode i) = i := by
  rw [encode, decodeCommand_packCommand]
  cases i with
  | wrBlock i v => simp [Instr.isRead, Instr.idx, Instr.wdata, decodeWrite]
  | rdBlock i d => simp [Instr.isRead, Instr.idx, Instr.wdata, decodeRead]
  | wrDigest j d => simp [Instr.isRead, Instr.idx, Instr.wdata, decodeWrite]
  | rdDigest j d => simp [Instr.isRead, Instr.idx, Instr.wdata, decodeRead]
  | wrCtrl d => simp [Instr.isRead, Instr.idx, Instr.wdata, decodeWrite]
  | rdCtrl d => simp [Instr.isRead, Instr.idx, Instr.wdata, decodeRead]
  | wrStatus d => simp [Instr.isRead, Instr.idx, Instr.wdata, decodeWrite]
  | rdStatus d => simp [Instr.isRead, Instr.idx, Instr.wdata, decodeRead]
  | wrRsvdA idx d => simp [Instr.isRead, Instr.idx, Instr.wdata, decodeWrite, decoderTests_of_isReservedA idx h]
  | rdRsvdA idx d => simp [Instr.isRead, Instr.idx, Instr.wdata, decodeRead, decoderTests_of_isReservedA idx h]
  | wrRsvdB idx d => simp [Instr.isRead, Instr.idx, Instr.wdata, decodeWrite, decoderTests_of_isReservedB idx h]
  | rdRsvdB idx d => simp [Instr.isRead, Instr.idx, Instr.wdata, decodeRead, decoderTests_of_isReservedB idx h]

end Sys2Proof
end

section
/-! Reads (20_memory.md R28, R32): the window as one map, and every read transaction as a look into it. -/

namespace Sys2Proof.Machine

/-! ### The window map at the index of each row -/

section
variable (e : Engine)

@[simp] theorem windowRead_blockIdx (i : BitVec 4) : windowRead e (blockIdx i) = e.blockWord i := by
  have hrange : ∀ i, (blockIdx i).toNat < 16 := by decide
  have hfield : (blockIdx i).extractLsb' 0 4 = i := blockField_blockIdx i
  simp [windowRead, hrange, hfield]

@[simp] theorem windowRead_digestIdx (j : BitVec 3) : windowRead e (digestIdx j) = e.digestWord j := by
  have hrange : ∀ j, ¬ (digestIdx j).toNat < 16 ∧ (digestIdx j).toNat < 24 := by decide
  have hfield : (digestIdx j).extractLsb' 0 3 = j := digestField_digestIdx j
  simp [windowRead, hrange, hfield]

@[simp] theorem windowRead_ctrl : windowRead e 24#5 = ctrlReadValue := rfl

@[simp] theorem windowRead_status : windowRead e 25#5 = e.statusWord := rfl

theorem windowRead_reserved {idx : WindowIndex} (h : 26 ≤ idx.toNat) : windowRead e idx = reservedReadValue := by
  have hctrl : idx ≠ 24#5 := by rintro rfl; simp at h
  have hstatus : idx ≠ 25#5 := by rintro rfl; simp at h
  simp [windowRead, hctrl, hstatus, show ¬ idx.toNat < 16 by omega, show ¬ idx.toNat < 24 by omega]

end

/-! ### The read transactions -/

/-- A read drives the window word at its index and does nothing else. -/
theorem exec_of_isRead {i : Instr} (hwf : i.wellFormed = true) (hread : i.isRead = true) (s : State) :
    exec i s = .next (s.drive (windowRead s.engine i.idx)) := by
  cases i with
  | rdBlock i d => simp [exec, execRdBlock, Instr.idx]
  | rdDigest j d => simp [exec, execRdDigest, Instr.idx]
  | rdCtrl d => rfl
  | rdStatus d => rfl
  | rdRsvdA idx d => simp [exec, execRdRsvdA, Instr.idx, windowRead_reserved _ (toNat_ge_of_reserved idx (.inl hwf))]
  | rdRsvdB idx d => simp [exec, execRdRsvdB, Instr.idx, windowRead_reserved _ (toNat_ge_of_reserved idx (.inr hwf))]
  | wrBlock | wrDigest | wrCtrl | wrStatus | wrRsvdA | wrRsvdB => cases hread

/-- A step that takes the word of a transaction is the transaction's meaning with the sequencer's step over it. -/
theorem step_of_encode {s : State} {i : Instr} {rest : List PortCycle} (hreset : s.resetDone = true)
    (hwf : i.wellFormed = true) (hinputs : s.inputs = PortCycle.command (encode i) :: rest) :
    step s = withSequencer s.engine (exec i s.popCycle) := by
  have hcycle : s.nextCycle = PortCycle.command (encode i) := by simp [State.nextCycle, hinputs]
  simp [step, clockEdge, hcycle, PortCycle.command, hreset, runTransaction, decodeCommand_encode hwf]

/-- Settles O18: a read drives the window word; the sequencer's step of the same edge touches neither the read data nor
the draw counter. -/
theorem readsReturnTheWindowBeforeTheEdge : Obligations.ReadsReturnTheWindowBeforeTheEdge := by
  refine ⟨fun i s hwf hread => exec_of_isRead hwf hread s, fun s i rest hreset hwf hread hinputs => ?_⟩
  rw [step_of_encode hreset hwf hinputs, exec_of_isRead hwf hread]
  exact ⟨_, rfl, rfl, rfl⟩

end Sys2Proof.Machine
end

section
/-! Writes of the block input buffer over one edge (20_memory.md R33): WR_BLOCK writes `BLOCK_W`, and no other
transaction and no sequencer step does. -/

namespace Sys2Proof.Machine

@[simp] theorem sequencerStep_blockW (x y : Engine) : (sequencerStep x y).blockW = y.blockW := by
  cases hf : x.fsm with
  | idle => rw [sequencerStep_idle y hf]
  | round => rw [sequencerStep_round y hf, roundEdge_blockW]
  | final => rw [sequencerStep_final y hf, finalEdge_blockW]

@[simp] theorem sequencerStep_blockWord (x y : Engine) (k : BitVec 4) :
    (sequencerStep x y).blockWord k = y.blockWord k := by
  simp [Engine.blockWord]

theorem transactionEngine_blockW {i : Instr} (h : ∀ k v, i ≠ .wrBlock k v) (e : Engine) :
    (transactionEngine i e).blockW = e.blockW := by
  cases i with
  | wrBlock k v => exact absurd rfl (h k v)
  | wrCtrl d =>
    rw [transactionEngine]
    split
    · exact e.start_blockW
    · rfl
  | _ => rfl

theorem cycleEngine_of_wrBlock {c : PortCycle} {cw : CommandWord} {i : BitVec 4} {v : Word} (htxn : c.txn = some cw)
    (hdecode : decodeCommand cw = .wrBlock i v) (e : Engine) : cycleEngine c e = e.setBlockWord i v := by
  simp [cycleEngine, htxn, hdecode, transactionEngine]

theorem cycleEngine_blockW {c : PortCycle} (h : ∀ cw i v, c.txn = some cw → decodeCommand cw ≠ .wrBlock i v)
    (e : Engine) : (cycleEngine c e).blockW = e.blockW := by
  unfold cycleEngine
  cases htxn : c.txn with
  | none => rfl
  | some cw => exact transactionEngine_blockW (fun i v => h cw i v htxn) e

/-- Settles O29: the block words after an edge are those the cycle's transaction leaves, in every FSM state. -/
theorem blockWritesTakeEffectAtTheirEdge : Obligations.BlockWritesTakeEffectAtTheirEdge := by
  intro s hreset hrst
  obtain ⟨t, hstep, hengine, -, -⟩ := step_next hreset hrst
  constructor
  · intro cw i v htxn hdecode
    have hwords (k : BitVec 4) : t.engine.blockWord k = if k = i then v else s.engine.blockWord k := by
      rw [hengine, sequencerStep_blockWord, cycleEngine_of_wrBlock htxn hdecode, Engine.blockWord_setBlockWord]
    exact ⟨t, hstep, by simp [hwords], fun k hk => by simp [hwords, hk]⟩
  · intro hnone
    exact ⟨t, hstep, by rw [hengine, sequencerStep_blockW, cycleEngine_blockW hnone]⟩

end Sys2Proof.Machine
end

section
/-! The byte order of blocks and digests (20_memory.md R29, R30): a word is its four bytes, the first at the top. -/

namespace Sys2Proof.Machine

/-! ### The bytes of four bytes put together -/

section
variable (p q r s : Byte)

theorem extract_byte_zero : (p ++ q ++ r ++ s).extractLsb' 24 8 = p := by
  rw [BitVec.extractLsb'_append_eq_of_le (by decide), BitVec.extractLsb'_append_eq_of_le (by decide)]
  exact BitVec.extractLsb'_append_eq_left

theorem extract_byte_one : (p ++ q ++ r ++ s).extractLsb' 16 8 = q := by
  rw [BitVec.extractLsb'_append_eq_of_le (by decide), BitVec.extractLsb'_append_eq_of_le (by decide)]
  exact BitVec.extractLsb'_append_eq_right

theorem extract_byte_two : (p ++ q ++ r ++ s).extractLsb' 8 8 = r := by
  rw [BitVec.extractLsb'_append_eq_of_le (by decide)]
  exact BitVec.extractLsb'_append_eq_right

theorem extract_byte_three : (p ++ q ++ r ++ s).extractLsb' 0 8 = s :=
  BitVec.extractLsb'_append_eq_right

end

/-- The four bytes of a word, put together from the top, are the word. -/
theorem append_bytes (w : Word) :
    w.extractLsb' 24 8 ++ w.extractLsb' 16 8 ++ w.extractLsb' 8 8 ++ w.extractLsb' 0 8 = w := by
  rw [BitVec.extractLsb'_append_extractLsb'_eq_extractLsb' (by decide),
    BitVec.extractLsb'_append_extractLsb'_eq_extractLsb' (by decide),
    BitVec.extractLsb'_append_extractLsb'_eq_extractLsb' (by decide)]
  exact BitVec.extractLsb'_eq_self

/-! ### Blocks and digests -/

theorem blockOfBytes_getElem (b : Vector Byte 64) {i : Nat} (hi : i < 16) :
    (blockOfBytes b)[i] = b[4 * i] ++ b[4 * i + 1] ++ b[4 * i + 2] ++ b[4 * i + 3] := by
  simp [blockOfBytes]

theorem bytesOfDigest_getElem (d : Vector Word 8) {j k : Nat} (hj : j < 8) (hk : k < 4) :
    (bytesOfDigest d)[4 * j + k] = d[j].extractLsb' (24 - 8 * k) 8 := by
  have hword : (4 * j + k) / 4 = j := by omega
  have hbyte : (4 * j + k) % 4 = k := by omega
  simp [bytesOfDigest, hword, hbyte]

/-- Settles O51, byte by byte of the word. -/
theorem blockBytesAreBigEndian : Obligations.BlockBytesAreBigEndian := by
  intro b i k hi hk
  rw [blockOfBytes_getElem b hi]
  match k, hk with
  | 0, _ => exact extract_byte_zero ..
  | 1, _ => exact extract_byte_one ..
  | 2, _ => exact extract_byte_two ..
  | 3, _ => exact extract_byte_three ..

/-- Settles O52: the four bytes at `4j` are the four of word `j`. -/
theorem digestBytesAreBigEndian : Obligations.DigestBytesAreBigEndian := by
  intro d j hj
  have hbyte (k : Nat) (hk : k < 4) : (bytesOfDigest d)[4 * j + k] = d[j].extractLsb' (24 - 8 * k) 8 :=
    bytesOfDigest_getElem d hj hk
  have hfirst : (bytesOfDigest d)[4 * j] = d[j].extractLsb' 24 8 := hbyte 0 (by decide)
  refine ⟨hbyte, ?_⟩
  rw [hfirst, hbyte 1 (by decide), hbyte 2 (by decide), hbyte 3 (by decide)]
  exact append_bytes d[j]

end Sys2Proof.Machine
end

section
/-! The model's boundary (20_memory.md R31, R36): which requests become a command word or a block, and which one. -/

namespace Sys2Proof.Machine

/-- An access becomes a command word when it passes the four tests, and that word packs its own fields. -/
theorem RawAccess.toCommand_eq_ok_iff (a : RawAccess) (cw : CommandWord) : a.toCommand = .ok cw ↔
    (a.byteOffset = 0 ∧ a.bytes = 4 ∧ a.idx < 32 ∧ a.wdata < 2 ^ 32) ∧
      packCommand a.we (BitVec.ofNat 5 a.idx) (BitVec.ofNat 32 a.wdata) = cw := by
  unfold RawAccess.toCommand
  split_ifs with hoffset hbytes hidx hdata
  · exact iff_of_false nofun fun ⟨⟨h, _, _, _⟩, _⟩ => hoffset h
  · exact iff_of_false nofun fun ⟨⟨_, h, _, _⟩, _⟩ => hbytes h
  · exact iff_of_false nofun fun ⟨⟨_, _, h, _⟩, _⟩ => hidx.not_gt h
  · exact iff_of_false nofun fun ⟨⟨_, _, _, h⟩, _⟩ => hdata.not_gt h
  · rw [Except.ok.injEq,
      and_iff_right ⟨not_not.1 hoffset, not_not.1 hbytes, Nat.not_le.1 hidx, Nat.not_le.1 hdata⟩]

theorem blockOfByteList_of_length {l : List Byte} (h : l.length = 64) : ∃ b, blockOfByteList l = .ok b :=
  ⟨_, dif_pos h⟩

theorem blockOfByteList_refused {l : List Byte} (h : l.length ≠ 64) :
    blockOfByteList l = .error .notSixtyFourBytes := dif_neg h

/-- Settles O53: the tests of `toCommand` are the conditions, and the packed word's fields are the access's. -/
theorem boundaryRefusesWhatThePortCannotSay : Obligations.BoundaryRefusesWhatThePortCannotSay := by
  refine ⟨fun a => ?_, fun a cw hcw => ?_, fun l => ⟨fun ⟨b, hb⟩ => ?_, blockOfByteList_of_length⟩,
    fun l => blockOfByteList_refused⟩
  · simp only [RawAccess.toCommand_eq_ok_iff, exists_and_left, exists_eq', and_true]
  · obtain ⟨⟨-, -, hidx, hdata⟩, rfl⟩ := (a.toCommand_eq_ok_iff cw).1 hcw
    rw [cmdWe_packCommand, cmdIdx_packCommand, cmdData_packCommand]
    exact ⟨rfl, (BitVec.toNat_ofNat ..).trans (Nat.mod_eq_of_lt hidx),
      (BitVec.toNat_ofNat ..).trans (Nat.mod_eq_of_lt hdata)⟩
  · by_contra hlength
    simp [blockOfByteList_refused hlength] at hb

end Sys2Proof.Machine
end

section
/-! The command word and its transaction (30_encoding.md R41 to R44, R48): a packed word as a number, the decoder's
transaction field by field, and that encoder and decoder undo each other. -/

namespace Sys2Proof

/-! ### The decoder on numbers -/

theorem decode_of_lt {n : Nat} (h : n < 2 ^ 38) : decode n = .ok (decodeCommand (BitVec.ofNat 38 n)) := if_pos h

theorem decode_of_le {n : Nat} (h : 2 ^ 38 ≤ n) : decode n = .error .widerThan38Bits := if_neg h.not_gt

theorem decode_toNat (cw : CommandWord) : decode cw.toNat = .ok (decodeCommand cw) := by
  rw [decode_of_lt cw.isLt, BitVec.ofNat_toNat, BitVec.setWidth_eq]

/-- A number of 38 bits fits in the table's container, whose two upper bits are then 0. -/
theorem decodeTableWord_of_lt {n : Nat} (h : n < 2 ^ 38) :
    decodeTableWord 40 n = some (decodeCommand (BitVec.ofNat 38 n)) := by
  rw [decodeTableWord, Nat.mod_eq_of_lt (h.trans (by decide)), decode_of_lt h]

theorem decodeTableWord_toNat (cw : CommandWord) : decodeTableWord 40 cw.toNat = some (decodeCommand cw) := by
  rw [decodeTableWord_of_lt cw.isLt, BitVec.ofNat_toNat, BitVec.setWidth_eq]

/-- Settles O5: the bound is the decoder's one test. -/
theorem numbersOf38BitsDecode : Obligations.NumbersOf38BitsDecode :=
  fun _ => ⟨decode_of_lt, decode_of_le⟩

/-- Settles O2: the decoder finds the transaction in its word, and the two number forms read the same word. -/
theorem decodeUndoesEncode : Obligations.DecodeUndoesEncode := by
  intro i hwf
  have hdecode : decodeCommand (encode i) = i := decodeCommand_encode hwf
  exact ⟨hdecode, by rw [decode_toNat, hdecode], by rw [decodeTableWord_toNat, hdecode]⟩

/-! ### A packed word as a number, and packed again from its fields -/

theorem toNat_append_eq_add {m n : Nat} (x : BitVec m) (y : BitVec n) :
    (x ++ y).toNat = x.toNat * 2 ^ n + y.toNat := by
  rw [BitVec.toNat_append, ← Nat.shiftLeft_add_eq_or_of_lt y.isLt, Nat.shiftLeft_eq]

theorem toNat_packCommand (we : Bool) (idx : WindowIndex) (d : Word) :
    (packCommand we idx d).toNat = we.toNat * 2 ^ 37 + idx.toNat * 2 ^ 32 + d.toNat := by
  rw [packCommand, toNat_append_eq_add, toNat_append_eq_add, BitVec.toNat_ofBool]
  omega

@[simp] theorem packCommand_fields (cw : CommandWord) : packCommand (cmdWe cw) (cmdIdx cw) (cmdData cw) = cw := by
  refine BitVec.eq_of_getLsbD_eq fun k hk => ?_
  rw [packCommand_bit]
  split_ifs with hdata hidx
  · simp [cmdData, hdata]
  · have hpos : k - 32 < 5 ∧ 32 + (k - 32) = k := by omega
    simp [cmdIdx, hpos]
  · obtain rfl : k = 37 := by omega
    simp [cmdWe]

/-! ### The decoder's transaction, field by field -/

theorem blockIdx_blockField : ∀ idx, isBlockIdx idx = true → blockIdx (blockField idx) = idx := by decide

theorem digestIdx_digestField : ∀ idx, isDigestIdx idx = true → digestIdx (digestField idx) = idx := by decide

/-- `isReservedB_of_rest`, with the tests spelled as the decoder leaves them. -/
theorem isReservedB_of_tests_fail (idx : WindowIndex) : ¬ isBlockIdx idx = true → ¬ isDigestIdx idx = true →
    ¬ (idx == 24#5) = true → ¬ (idx == 25#5) = true → ¬ isRsvdAIdx idx = true → isReservedB idx = true := by
  simpa using isReservedB_of_rest idx

theorem decodeRead_fields (idx : WindowIndex) (d : Word) : (decodeRead idx d).wellFormed = true ∧
    (decodeRead idx d).isRead = true ∧ (decodeRead idx d).idx = idx ∧ (decodeRead idx d).wdata = d := by
  unfold decodeRead
  split_ifs with hblock hdigest hctrl hstatus hreserved
  · exact ⟨rfl, rfl, blockIdx_blockField idx hblock, rfl⟩
  · exact ⟨rfl, rfl, digestIdx_digestField idx hdigest, rfl⟩
  · exact ⟨rfl, rfl, (eq_of_beq hctrl).symm, rfl⟩
  · exact ⟨rfl, rfl, (eq_of_beq hstatus).symm, rfl⟩
  · exact ⟨(isRsvdAIdx_eq idx).symm.trans hreserved, rfl, rfl, rfl⟩
  · exact ⟨isReservedB_of_tests_fail idx hblock hdigest hctrl hstatus hreserved, rfl, rfl, rfl⟩

theorem decodeWrite_fields (idx : WindowIndex) (d : Word) : (decodeWrite idx d).wellFormed = true ∧
    (decodeWrite idx d).isRead = false ∧ (decodeWrite idx d).idx = idx ∧ (decodeWrite idx d).wdata = d := by
  unfold decodeWrite
  split_ifs with hblock hdigest hctrl hstatus hreserved
  · exact ⟨rfl, rfl, blockIdx_blockField idx hblock, rfl⟩
  · exact ⟨rfl, rfl, digestIdx_digestField idx hdigest, rfl⟩
  · exact ⟨rfl, rfl, (eq_of_beq hctrl).symm, rfl⟩
  · exact ⟨rfl, rfl, (eq_of_beq hstatus).symm, rfl⟩
  · exact ⟨(isRsvdAIdx_eq idx).symm.trans hreserved, rfl, rfl, rfl⟩
  · exact ⟨isReservedB_of_tests_fail idx hblock hdigest hctrl hstatus hreserved, rfl, rfl, rfl⟩

theorem decodeCommand_fields (cw : CommandWord) : (decodeCommand cw).wellFormed = true ∧
    (decodeCommand cw).isRead = (!cmdWe cw) ∧ (decodeCommand cw).idx = cmdIdx cw ∧
    (decodeCommand cw).wdata = cmdData cw := by
  rw [decodeCommand]
  cases cmdWe cw with
  | false => exact decodeRead_fields _ _
  | true => exact decodeWrite_fields _ _

section
variable (cw : CommandWord)

@[simp] theorem decodeCommand_wellFormed : (decodeCommand cw).wellFormed = true := by
  obtain ⟨hwf, -, -, -⟩ := decodeCommand_fields cw
  exact hwf

@[simp] theorem decodeCommand_isRead : (decodeCommand cw).isRead = !cmdWe cw := by
  obtain ⟨-, hread, -, -⟩ := decodeCommand_fields cw
  exact hread

@[simp] theorem decodeCommand_idx : (decodeCommand cw).idx = cmdIdx cw := by
  obtain ⟨-, -, hidx, -⟩ := decodeCommand_fields cw
  exact hidx

@[simp] theorem decodeCommand_wdata : (decodeCommand cw).wdata = cmdData cw := by
  obtain ⟨-, -, -, hdata⟩ := decodeCommand_fields cw
  exact hdata

theorem encode_decodeCommand : encode (decodeCommand cw) = cw := by
  rw [encode, decodeCommand_isRead, decodeCommand_idx, decodeCommand_wdata, Bool.not_not, packCommand_fields]

end

/-- Settles O3: the fields of the decoded transaction are those of the word, which they make again. -/
theorem encodeUndoesDecode : Obligations.EncodeUndoesDecode :=
  fun cw => ⟨decodeCommand_wellFormed cw, encode_decodeCommand cw⟩

/-- The word of a read does what its window index says, whatever its WDATA. -/
theorem exec_packCommand_read (idx : WindowIndex) (d : Word) (s : Machine.State) :
    Machine.exec (decodeCommand (packCommand false idx d)) s = .next (s.drive (Machine.windowRead s.engine idx)) := by
  rw [Machine.exec_of_isRead (decodeCommand_wellFormed _) (by simp), decodeCommand_idx, cmdIdx_packCommand]

/-- Settles O1: the fields and the number are those packed, and a read's meaning names its index alone. -/
theorem commandWordFields : Obligations.CommandWordFields := by
  refine ⟨fun we idx d => ⟨?_, ?_, ?_, toNat_packCommand we idx d⟩, packCommand_fields, fun idx d d' s => ?_⟩
  · exact cmdWe_packCommand we idx d
  · exact cmdIdx_packCommand we idx d
  · exact cmdData_packCommand we idx d
  · rw [exec_packCommand_read, exec_packCommand_read]

end Sys2Proof
end

section
/-! The opcode map (30_encoding.md R42): a word matches the row of its transaction, and no other row. -/

namespace Sys2Proof

theorem Instr.row_mem_opcodeTable (i : Instr) : i.row ∈ opcodeTable := by
  cases i <;> simp [opcodeTable, Instr.row]

theorem opcodeTable_mask_and_wdata : ∀ r ∈ opcodeTable, r.mask &&& 0x00FFFFFFFF#38 = 0#38 := by decide

theorem OpcodeRow.matches_iff {r : OpcodeRow} {cw : CommandWord} : r.matches cw = true ↔ cw &&& r.mask = r.pattern :=
  beq_iff_eq

/-- Every row tests a bit, common to both masks, in which its pattern differs from that of any other row. -/
theorem opcodeTable_eq_of_patterns_agree : ∀ r ∈ opcodeTable, ∀ r' ∈ opcodeTable,
    r.pattern &&& r'.mask = r'.pattern &&& r.mask → r = r' := by decide

theorem opcodeTable_eq_of_matches {r r' : OpcodeRow} (hr : r ∈ opcodeTable) (hr' : r' ∈ opcodeTable)
    {cw : CommandWord} (hm : r.matches cw = true) (hm' : r'.matches cw = true) : r = r' := by
  refine opcodeTable_eq_of_patterns_agree r hr r' hr' ?_
  rw [← OpcodeRow.matches_iff.1 hm, ← OpcodeRow.matches_iff.1 hm', BitVec.and_assoc, BitVec.and_assoc,
    BitVec.and_comm r.mask]

/-- A mask without WDATA bits sees no WDATA. -/
theorem packCommand_and_mask {mask : CommandWord} (h : mask &&& 0x00FFFFFFFF#38 = 0#38) (we : Bool)
    (idx : WindowIndex) (d : Word) : packCommand we idx d &&& mask = packCommand we idx 0#32 &&& mask := by
  refine BitVec.eq_of_getLsbD_eq fun k hk => ?_
  rw [BitVec.getLsbD_and, BitVec.getLsbD_and, packCommand_bit, packCommand_bit]
  by_cases hdata : k < 32
  · have hones : ∀ k < 32, (0x00FFFFFFFF#38).getLsbD k = true := by decide
    have hmask : mask.getLsbD k = false := by
      simpa [hones k hdata] using congrArg (fun x => x.getLsbD k) h
    simp [hmask]
  · simp [hdata]

theorem Instr.rowSelects (i : Instr) : Laws.RowSelects.Statement i := by
  cases i with
  | wrBlock i v => exact Laws.RowSelects.wrBlock i v
  | rdBlock i d => exact Laws.RowSelects.rdBlock i d
  | rdDigest j d => exact Laws.RowSelects.rdDigest j d
  | wrDigest j d => exact Laws.RowSelects.wrDigest j d
  | wrCtrl d => exact Laws.RowSelects.wrCtrl d
  | rdCtrl d => exact Laws.RowSelects.rdCtrl d
  | rdStatus d => exact Laws.RowSelects.rdStatus d
  | wrStatus d => exact Laws.RowSelects.wrStatus d
  | rdRsvdA idx d => exact Laws.RowSelects.rdRsvdA idx d
  | rdRsvdB idx d => exact Laws.RowSelects.rdRsvdB idx d
  | wrRsvdA idx d => exact Laws.RowSelects.wrRsvdA idx d
  | wrRsvdB idx d => exact Laws.RowSelects.wrRsvdB idx d

theorem Instr.row_matches_encode {i : Instr} (h : i.wellFormed = true) : i.row.matches (encode i) = true := by
  rw [OpcodeRow.matches_iff, encode,
    packCommand_and_mask (opcodeTable_mask_and_wdata i.row i.row_mem_opcodeTable)]
  exact OpcodeRow.matches_iff.1 (i.rowSelects h)

/-- Settles O4: a word is the encoding of its transaction, so it matches that row, and two rows never share a word. -/
theorem everyWordSelectsOneRow : Obligations.EveryWordSelectsOneRow := by
  refine ⟨fun cw => ?_, opcodeTable_mask_and_wdata⟩
  have hmem : (decodeCommand cw).row ∈ opcodeTable := (decodeCommand cw).row_mem_opcodeTable
  have hmatches : (decodeCommand cw).row.matches cw = true := by
    simpa [encode_decodeCommand] using Instr.row_matches_encode (decodeCommand_wellFormed cw)
  exact ⟨hmem, hmatches, fun r hr hm => opcodeTable_eq_of_matches hr hmem hm hmatches⟩

end Sys2Proof
end

section
/-! The assembler's statements (30_encoding.md R49): the numbers of its table are packed words. -/

namespace Sys2Proof

theorem packCommand_eq_ofNat (we : Bool) (idx : WindowIndex) (d : Word) :
    packCommand we idx d = BitVec.ofNat 38 (we.toNat * 2 ^ 37 + idx.toNat * 2 ^ 32 + d.toNat) := by
  rw [← toNat_packCommand, BitVec.ofNat_toNat, BitVec.setWidth_eq]

@[simp] theorem toNat_blockIdx : ∀ i, (blockIdx i).toNat = i.toNat := by decide
@[simp] theorem toNat_digestIdx : ∀ j, (digestIdx j).toNat = 16 + j.toNat := by decide

/-- The canonical spelling: only a read must have WDATA = 0 (R43). -/
theorem isCanonical_decodeCommand_packCommand (we : Bool) (idx : WindowIndex) (d : Word) :
    (decodeCommand (packCommand we idx d)).isCanonical = (we || d == 0#32) := by
  simp [Instr.isCanonical]

end Sys2Proof

namespace Sys2Proof.Machine

/-! ### The word of each statement -/

namespace AsmStatement

section
variable (i : BitVec 4) (j : BitVec 3) (idx : WindowIndex) (v : Word)

@[simp] theorem assemble_wrBlock : (wrBlock i v).assemble = some (packCommand true (blockIdx i) v) := by
  simp [assemble, packCommand_eq_ofNat]

@[simp] theorem assemble_rdBlock : (rdBlock i).assemble = some (packCommand false (blockIdx i) 0#32) := by
  simp [assemble, packCommand_eq_ofNat]

@[simp] theorem assemble_wrDigest : (wrDigest j v).assemble = some (packCommand true (digestIdx j) v) := by
  simp [assemble, packCommand_eq_ofNat]

@[simp] theorem assemble_rdDigest : (rdDigest j).assemble = some (packCommand false (digestIdx j) 0#32) := by
  simp [assemble, packCommand_eq_ofNat]

@[simp] theorem assemble_wrCtrl : (wrCtrl v).assemble = some (packCommand true 24#5 v) := by
  simp [assemble, packCommand_eq_ofNat]

@[simp] theorem assemble_rdCtrl : rdCtrl.assemble = some (packCommand false 24#5 0#32) := rfl

@[simp] theorem assemble_wrStatus : (wrStatus v).assemble = some (packCommand true 25#5 v) := by
  simp [assemble, packCommand_eq_ofNat]

@[simp] theorem assemble_rdStatus : rdStatus.assemble = some (packCommand false 25#5 0#32) := rfl

@[simp] theorem assemble_wrRsvd : (wrRsvd idx v).assemble = some (packCommand true idx v) := by
  simp [assemble, packCommand_eq_ofNat]

@[simp] theorem assemble_rdRsvd : (rdRsvd idx).assemble = some (packCommand false idx 0#32) := by
  simp [assemble, packCommand_eq_ofNat]

@[simp] theorem assemble_wr : (wr idx v).assemble = some (packCommand true idx v) := rfl

@[simp] theorem assemble_rd : (rd idx).assemble = some (packCommand false idx 0#32) := rfl

@[simp] theorem assemble_nop : nop.assemble = none := rfl

end

theorem assemble_eq_none_iff (a : AsmStatement) : a.assemble = none ↔ a = .nop := by
  cases a <;> simp

/-- A statement that is not NOP packs a word, of a read only with WDATA = 0. -/
theorem eq_packCommand_of_assemble {a : AsmStatement} {cw : CommandWord} (h : a.assemble = some cw) :
    ∃ we idx d, cw = packCommand we idx d ∧ (we || d == 0#32) = true := by
  cases a with
  | nop => cases h
  | _ =>
    simp at h
    exact ⟨_, _, _, h.symm, rfl⟩

end AsmStatement

/-- Settles O55: each word of R49's table packs the fields of the statement's transaction. -/
theorem statementsAssembleToTheirTransactions : Obligations.StatementsAssembleToTheirTransactions := by
  refine ⟨fun i v => ⟨AsmStatement.assemble_wrBlock i v, AsmStatement.assemble_rdBlock i⟩,
    fun j v => ⟨AsmStatement.assemble_wrDigest j v, AsmStatement.assemble_rdDigest j⟩,
    fun v => ⟨AsmStatement.assemble_wrCtrl v, AsmStatement.assemble_wrStatus v⟩,
    AsmStatement.assemble_rdCtrl, AsmStatement.assemble_rdStatus, fun idx => ?_, fun idx v => ?_,
    fun n v _ => ⟨AsmStatement.assemble_rdRsvd n, AsmStatement.assemble_wrRsvd n v⟩,
    fun n v _ => ⟨AsmStatement.assemble_rdRsvd n, AsmStatement.assemble_wrRsvd n v⟩, fun n v _ => ?_,
    fun a cw ha => ?_, AsmStatement.assemble_eq_none_iff⟩
  · simp
  · simp
  · simp
  · obtain ⟨we, idx, d, rfl, hcanonical⟩ := AsmStatement.eq_packCommand_of_assemble ha
    rw [isCanonical_decodeCommand_packCommand, hcanonical]

end Sys2Proof.Machine
end

section
/-! One edge as the host drives it: a presented word, a cycle with none, and the host's cycles built on them
(30_encoding.md R46, R49, R50). -/

namespace Sys2Proof.Machine

/-! ### The cycle of a given word, or of none -/

theorem clockEdge_command {s : State} (hd : s.resetDone = true) (cw : CommandWord) :
    clockEdge (PortCycle.command cw) s = withSequencer s.engine (exec (decodeCommand cw) s) := by
  simp [clockEdge, PortCycle.command, hd, runTransaction]

/-- Settles O21: the presented word is the number itself, and its cycle is the next one. -/
theorem stepRunsTheFetchedWord : Obligations.StepRunsTheFetchedWord := by
  intro s w i hw hdecode
  obtain rfl : decodeCommand (BitVec.ofNat 38 w) = i := by simpa [decodeTableWord_of_lt hw] using hdecode
  have hstep : step (s.withFetchWord 40 w) = clockEdge (PortCycle.command (BitVec.ofNat 38 w)) s := by
    rw [State.withFetchWord, Nat.mod_eq_of_lt (hw.trans (by decide)), step, State.present_nextCycle,
      State.present_popCycle]
  rw [hstep]
  refine ⟨fun hreset => ?_, fun hreset => by simp [clockEdge, PortCycle.command, hreset]⟩
  obtain ⟨t, hexec, -, -, -⟩ := exec_next (decodeCommand (BitVec.ofNat 38 w)) s
  exact ⟨t, hexec, by rw [clockEdge_command hreset, hexec]; rfl⟩

@[simp] theorem cycleEngine_idle (e : Engine) : cycleEngine PortCycle.idle e = e := rfl

/-- Settles O22: with no transaction the sequencer's step is laid over the engine before the edge. -/
theorem idleCycleStepsTheSequencerOnly : Obligations.IdleCycleStepsTheSequencerOnly := by
  intro s hreset hcycle
  obtain ⟨t, hstep, hengine, -, -⟩ := step_next hreset (by rw [hcycle])
  replace hengine : t.engine = sequencerStep s.engine s.engine := by
    rw [hengine, hcycle]
    exact congrArg _ (cycleEngine_idle s.engine)
  refine ⟨t, hstep, hengine, fun k => ?_, fun hidle => ?_⟩
  · rw [hengine, sequencerStep_blockWord]
  · rw [hengine, sequencerStep_idle _ hidle]

/-- `step_next`, for a cycle that is given and not taken from the inputs. -/
theorem clockEdge_next {c : PortCycle} {s : State} (hr : c.rst = false) (hd : s.resetDone = true) :
    ∃ t, clockEdge c s = .next t ∧ t.engine = sequencerStep s.engine (cycleEngine c s.engine) ∧
      t.resetDone = true := by
  obtain ⟨h, -⟩ | ⟨-, h, -⟩ | ⟨-, -, t, hedge, hengine, -, hreset⟩ := clockEdge_cases c s
  · simp [hr] at h
  · simp [hd] at h
  · exact ⟨t, hedge, hengine, hreset⟩

/-! ### The host's cycles -/

theorem hostCycle_cons {op : HostOp} {s t : State} (rest : List HostOp) (h : clockEdge op.cycle s = .next t) :
    hostCycle ⟨op :: rest, s⟩ = .next ⟨if op.repeats t.rdata then op :: rest else rest, t⟩ := by
  simp only [hostCycle, List.head?_cons, Option.elim_some, h]
  rfl

theorem hostPause_next {s t : State} (p : List HostOp) (h : clockEdge PortCycle.idle s = .next t) :
    hostPause ⟨p, s⟩ = .next ⟨p, t⟩ := by
  simp [hostPause, h]

theorem hostCycles_succ {r r' : HostRun} (n : Nat) (h : hostCycle r = .next r') :
    hostCycles (n + 1) r = hostCycles n r' := by
  simp [hostCycles, h]

theorem hostSchedule_true {r r' : HostRun} (gaps : List Bool) (h : hostCycle r = .next r') :
    hostSchedule (true :: gaps) r = hostSchedule gaps r' := by
  simp [hostSchedule, h]

theorem hostSchedule_false {r r' : HostRun} (gaps : List Bool) (h : hostPause r = .next r') :
    hostSchedule (false :: gaps) r = hostSchedule gaps r' := by
  simp [hostSchedule, h]

end Sys2Proof.Machine
end

section
/-! LOADBLK (30_encoding.md R50): each presented statement writes its block word, in every FSM state, and a gap writes
none. -/

namespace Sys2Proof.Machine

/-- A cycle without a transaction keeps the block words. -/
theorem hostPause_blockW {s : State} (hd : s.resetDone = true) (p : List HostOp) :
    ∃ t, hostPause ⟨p, s⟩ = .next ⟨p, t⟩ ∧ t.resetDone = true ∧ t.engine.blockW = s.engine.blockW := by
  obtain ⟨t, hedge, hengine, hreset⟩ := clockEdge_next (c := PortCycle.idle) rfl hd
  exact ⟨t, hostPause_next p hedge, hreset, by rw [hengine, sequencerStep_blockW, cycleEngine_idle]⟩

/-- A presented WR_BLOCK statement writes its word and is done. -/
theorem hostCycle_wrBlock {s : State} (hd : s.resetDone = true) (i : BitVec 4) (v : Word) (rest : List HostOp) :
    ∃ t, hostCycle ⟨.stmt (.wrBlock i v) :: rest, s⟩ = .next ⟨rest, t⟩ ∧ t.resetDone = true ∧
      t.engine.blockW = s.engine.blockW.set i.toNat v := by
  obtain ⟨t, hedge, hengine, hreset⟩ :=
    clockEdge_next (c := HostOp.cycle (.stmt (.wrBlock i v))) (s := s) rfl hd
  have htxn : (HostOp.cycle (.stmt (.wrBlock i v))).txn = some (encode (.wrBlock i v)) :=
    AsmStatement.assemble_wrBlock i v
  refine ⟨t, hostCycle_cons rest hedge, hreset, ?_⟩
  rw [hengine, sequencerStep_blockW, cycleEngine_of_wrBlock htxn (decodeCommand_encode rfl),
    Engine.setBlockWord_blockW]

theorem loadBlock_drop (w : Vector Word 16) {m : Nat} (h : m < 16) :
    (loadBlock w).drop m = .stmt (.wrBlock (BitVec.ofFin ⟨m, h⟩) w[m]) :: (loadBlock w).drop (m + 1) := by
  rw [loadBlock, List.drop_eq_getElem_cons (by rwa [List.length_ofFn]), List.getElem_ofFn]
  rfl

/-- With the first `m` words in place and `16 - m` cycles of the host to come, the rest of LOADBLK loads the rest. -/
theorem hostSchedule_loadBlock (w : Vector Word 16) (gaps : List Bool) :
    ∀ (m : Nat) (s : State), s.resetDone = true → m + gaps.count true = 16 →
      (∀ (k : Nat) (hk : k < 16), k < m → s.engine.blockW[k] = w[k]) →
      ∃ t, hostSchedule gaps ⟨(loadBlock w).drop m, s⟩ = .next ⟨[], t⟩ ∧ t.engine.blockW = w := by
  induction gaps with
  | nil =>
    intro m s _ hcount hwords
    obtain rfl : m = 16 := by simpa using hcount
    exact ⟨s, by simp [hostSchedule, loadBlock], Vector.ext fun k hk => hwords k hk hk⟩
  | cons p gaps ih =>
    intro m s hd hcount hwords
    cases p with
    | false =>
      obtain ⟨t, hpause, hreset, hblock⟩ := hostPause_blockW hd ((loadBlock w).drop m)
      rw [hostSchedule_false gaps hpause]
      exact ih m t hreset (by simpa using hcount) (by simpa [hblock] using hwords)
    | true =>
      have hm : m < 16 := by
        rw [List.count_cons_self] at hcount
        omega
      obtain ⟨t, hcycle, hreset, hblock⟩ :=
        hostCycle_wrBlock hd (BitVec.ofFin ⟨m, hm⟩) w[m] ((loadBlock w).drop (m + 1))
      rw [loadBlock_drop w hm, hostSchedule_true gaps hcycle]
      refine ih (m + 1) t hreset (by rw [← hcount, List.count_cons_self]; omega) fun k hk hkm => ?_
      simp only [hblock, Vector.getElem_set, BitVec.toNat_ofFin]
      split_ifs with hlast
      · subst hlast
        rfl
      · exact hwords k hk (by omega)

/-- Settles O57: the whole of LOADBLK is to come, and no word need be in place. -/
theorem loadBlockLoadsTheBlock : Obligations.LoadBlockLoadsTheBlock :=
  fun s w gaps hd hcount => hostSchedule_loadBlock w gaps 0 s hd (by rw [hcount]) nofun

end Sys2Proof.Machine
end

section
/-! WAITDONE (30_encoding.md R50): each turn of the loop reads STATUS and takes the sequencer's step, and the turn that
reads DONE = 1 is the last. -/

namespace Sys2Proof.Machine

/-- The state after a cycle that reads STATUS: the read data are the STATUS word before the edge, and the sequencer takes
its step. -/
def State.afterStatusRead (s : State) : State :=
  (s.drive s.engine.statusWord).withEngine (sequencerStep s.engine s.engine)

section
variable (s : State)
@[simp] theorem State.afterStatusRead_engine : s.afterStatusRead.engine = sequencerStep s.engine s.engine := rfl
@[simp] theorem State.afterStatusRead_rdata : s.afterStatusRead.rdata = s.engine.statusWord := rfl
@[simp] theorem State.afterStatusRead_resetDone : s.afterStatusRead.resetDone = s.resetDone := rfl
end

theorem clockEdge_waitDone {s : State} (hd : s.resetDone = true) :
    clockEdge (HostOp.cycle .waitDone) s = .next s.afterStatusRead := by
  have hcycle : HostOp.cycle .waitDone = PortCycle.command (encode (.rdStatus 0#32)) := rfl
  rw [hcycle, clockEdge_command hd, decodeCommand_encode rfl]
  rfl

/-- Bit 1 of STATUS is DONE, so the loop goes on while DONE is 0. -/
theorem waitDone_repeats (e : Engine) : HostOp.waitDone.repeats e.statusWord = !e.done := by
  rw [HostOp.repeats, e.statusWord_eq]
  cases e.busy <;> cases e.done <;> rfl

/-- One turn of the loop. -/
theorem hostCycle_waitDone {s : State} (hd : s.resetDone = true) (rest : List HostOp) :
    hostCycle ⟨.waitDone :: rest, s⟩ =
      .next ⟨if s.engine.done then rest else .waitDone :: rest, s.afterStatusRead⟩ := by
  rw [hostCycle_cons rest (clockEdge_waitDone hd), State.afterStatusRead_rdata, waitDone_repeats]
  cases s.engine.done <;> rfl

theorem hostCycles_waitDone_of_not_done {s : State} (hd : s.resetDone = true) (hdone : s.engine.done = false)
    (rest : List HostOp) (n : Nat) : hostCycles (n + 1) ⟨.waitDone :: rest, s⟩ =
      hostCycles n ⟨.waitDone :: rest, s.afterStatusRead⟩ := by
  rw [hostCycles_succ n (hostCycle_waitDone hd rest)]
  simp [hdone]

/-! ### The three states of the sequencer -/

theorem waitDone_of_idle {s : State} (hd : s.resetDone = true) (hidle : s.engine.fsm = .idle)
    (hdone : s.engine.done = true) (rest : List HostOp) :
    ∃ t, hostCycles 1 ⟨.waitDone :: rest, s⟩ = .next ⟨rest, t⟩ ∧ t.rdata = 2#32 ∧ t.engine.fsm = .idle := by
  refine ⟨s.afterStatusRead, ?_, ?_, ?_⟩
  · rw [hostCycles_succ 0 (hostCycle_waitDone hd rest)]
    simp [hdone, hostCycles]
  · simp [Engine.statusWord_eq, Engine.busy, hidle, hdone]
  · simp [sequencerStep_idle _ hidle, hidle]

/-- The read in FINAL still shows DONE = 0; the next one shows 1. -/
theorem waitDone_of_final {s : State} (hd : s.resetDone = true) (hfinal : s.engine.fsm = .final)
    (hdone : s.engine.done = false) (rest : List HostOp) :
    ∃ t, hostCycles 2 ⟨.waitDone :: rest, s⟩ = .next ⟨rest, t⟩ ∧ t.rdata = 2#32 ∧ t.engine.fsm = .idle := by
  rw [hostCycles_waitDone_of_not_done hd hdone]
  exact waitDone_of_idle (s := s.afterStatusRead) hd (by simp [sequencerStep_final _ hfinal])
    (by simp [sequencerStep_final _ hfinal]) rest

/-- `k` rounds before the last one, the loop takes `k` turns, then that of the last round, of FINAL and of IDLE. -/
theorem waitDone_of_round (rest : List HostOp) (k : Nat) :
    ∀ s : State, s.resetDone = true → s.engine.fsm = .round → s.engine.done = false →
      s.engine.rnd.toNat + k = 63 →
      ∃ t, hostCycles (k + 3) ⟨.waitDone :: rest, s⟩ = .next ⟨rest, t⟩ ∧ t.rdata = 2#32 ∧
        t.engine.fsm = .idle := by
  induction k with
  | zero =>
    intro s hd hround hdone hlast
    have hrnd : s.engine.rnd = 63#6 := BitVec.eq_of_toNat_eq hlast
    rw [hostCycles_waitDone_of_not_done hd hdone]
    exact waitDone_of_final (s := s.afterStatusRead) hd (by simp [sequencerStep_round _ hround, hrnd])
      (by simp [sequencerStep_round _ hround, hdone]) rest
  | succ k ih =>
    intro s hd hround hdone hleft
    have hrnd : s.engine.rnd ≠ 63#6 := by bv_omega
    rw [Nat.add_right_comm, hostCycles_waitDone_of_not_done hd hdone]
    refine ih s.afterStatusRead hd (by simp [sequencerStep_round _ hround, hrnd, hround])
      (by simp [sequencerStep_round _ hround, hdone]) ?_
    rw [State.afterStatusRead_engine, sequencerStep_round _ hround, roundEdge_rnd]
    bv_omega

/-- An idle engine without a result shows DONE = 0 at every turn. -/
theorem waitDone_forever (rest : List HostOp) (n : Nat) :
    ∀ s : State, s.resetDone = true → s.engine.fsm = .idle → s.engine.done = false →
      ∃ t, hostCycles n ⟨.waitDone :: rest, s⟩ = .next ⟨.waitDone :: rest, t⟩ := by
  induction n with
  | zero => exact fun s _ _ _ => ⟨s, rfl⟩
  | succ n ih =>
    intro s hd hidle hdone
    rw [hostCycles_waitDone_of_not_done hd hdone]
    exact ih s.afterStatusRead hd (by simp [sequencerStep_idle _ hidle, hidle])
      (by simp [sequencerStep_idle _ hidle, hdone])

/-- Settles O56: the control invariant has DONE = 0 while busy, so the loop turns until the sequencer is back in IDLE:
66 times at most, from round 0. -/
theorem waitDoneEndsAfterAnAcceptedStart : Obligations.WaitDoneEndsAfterAnAcceptedStart := by
  refine ⟨fun s rest hd hbusy hok => ?_, fun s rest hd hidle hdone => ?_, fun s rest n => waitDone_forever rest n s⟩
  · obtain ⟨-, hdone⟩ := hok
    cases hf : s.engine.fsm with
    | idle => exact absurd hf (s.engine.busy_iff.1 hbusy)
    | round =>
      have hleft : s.engine.rnd.toNat + (63 - s.engine.rnd.toNat) = 63 := by
        have := s.engine.rnd.isLt
        omega
      exact ⟨_, by omega, waitDone_of_round rest _ s hd hf (hdone hbusy) hleft⟩
    | final => exact ⟨2, by decide, waitDone_of_final hd hf (hdone hbusy) rest⟩
  · obtain ⟨t, hcycles, hrdata, -⟩ := waitDone_of_idle hd hidle hdone rest
    exact ⟨t, hcycles, hrdata⟩

end Sys2Proof.Machine
end

section
/-! A command word that matches a row of the opcode map decodes to that row's transaction, with its operands in place
(30_encoding.md R42, R43). -/

namespace Sys2Proof

/-- The transaction of a row, with the operands that a window index and WDATA give it (R43). -/
def OpcodeRow.transaction (r : OpcodeRow) (idx : WindowIndex) (d : Word) : Option Instr :=
  match r.mnemonic with
  | "WR_BLOCK" => some (.wrBlock (blockField idx) d)
  | "RD_BLOCK" => some (.rdBlock (blockField idx) d)
  | "RD_DIGEST" => some (.rdDigest (digestField idx) d)
  | "WR_DIGEST" => some (.wrDigest (digestField idx) d)
  | "WR_CTRL" => some (.wrCtrl d)
  | "RD_CTRL" => some (.rdCtrl d)
  | "RD_STATUS" => some (.rdStatus d)
  | "WR_STATUS" => some (.wrStatus d)
  | "RD_RSVD_a" => some (.rdRsvdA idx d)
  | "RD_RSVD_b" => some (.rdRsvdB idx d)
  | "WR_RSVD_a" => some (.wrRsvdA idx d)
  | "WR_RSVD_b" => some (.wrRsvdB idx d)
  | _ => none

/-- A transaction is determined by its row, its window index and its WDATA. -/
theorem Instr.row_transaction (i : Instr) : i.row.transaction i.idx i.wdata = some i := by
  cases i with
  | wrBlock i v => exact congrArg (fun k => some (Instr.wrBlock k v)) (blockField_blockIdx i)
  | rdBlock i d => exact congrArg (fun k => some (Instr.rdBlock k d)) (blockField_blockIdx i)
  | rdDigest j d => exact congrArg (fun k => some (Instr.rdDigest k d)) (digestField_digestIdx j)
  | wrDigest j d => exact congrArg (fun k => some (Instr.wrDigest k d)) (digestField_digestIdx j)
  | _ => rfl

/-- A word with the bits of a row has that row's transaction. -/
theorem decodeCommand_of_row (i : Instr) {j : Instr} {cw : CommandWord} (h : cw &&& i.row.mask = i.row.pattern)
    (hj : i.row.transaction (cmdIdx cw) (cmdData cw) = some j) : decodeCommand cw = j := by
  obtain ⟨hselects, -⟩ := everyWordSelectsOneRow
  obtain ⟨-, -, hunique⟩ := hselects cw
  have hrow : i.row = (decodeCommand cw).row := hunique i.row i.row_mem_opcodeTable (OpcodeRow.matches_iff.2 h)
  have hself := (decodeCommand cw).row_transaction
  rw [← hrow, decodeCommand_idx, decodeCommand_wdata, hj] at hself
  exact (Option.some.inj hself).symm

/-! ### The reserved rows, which also bound the index -/

theorem eq_of_isReservedA : ∀ idx, isReservedA idx = true → idx = 26#5 ∨ idx = 27#5 := by decide

theorem toNat_ge_of_isReservedB : ∀ idx, isReservedB idx = true → 28 ≤ idx.toNat := by decide

theorem wellFormed_of_decodeCommand {cw : CommandWord} {i : Instr} (h : decodeCommand cw = i) : i.wellFormed = true :=
  h ▸ decodeCommand_wellFormed cw

section
variable {cw : CommandWord}

theorem decodeCommand_of_rdRsvdA_row (h : cw &&& 0x3E00000000#38 = 0x1A00000000#38) :
    decodeCommand cw = .rdRsvdA (cmdIdx cw) (cmdData cw) ∧ (cmdIdx cw = 26#5 ∨ cmdIdx cw = 27#5) := by
  have hdecode : decodeCommand cw = .rdRsvdA (cmdIdx cw) (cmdData cw) := decodeCommand_of_row (.rdRsvdA 26 0) h rfl
  exact ⟨hdecode, eq_of_isReservedA _ (wellFormed_of_decodeCommand hdecode)⟩

theorem decodeCommand_of_rdRsvdB_row (h : cw &&& 0x3C00000000#38 = 0x1C00000000#38) :
    decodeCommand cw = .rdRsvdB (cmdIdx cw) (cmdData cw) ∧ 28 ≤ (cmdIdx cw).toNat := by
  have hdecode : decodeCommand cw = .rdRsvdB (cmdIdx cw) (cmdData cw) := decodeCommand_of_row (.rdRsvdB 28 0) h rfl
  exact ⟨hdecode, toNat_ge_of_isReservedB _ (wellFormed_of_decodeCommand hdecode)⟩

theorem decodeCommand_of_wrRsvdA_row (h : cw &&& 0x3E00000000#38 = 0x3A00000000#38) :
    decodeCommand cw = .wrRsvdA (cmdIdx cw) (cmdData cw) ∧ (cmdIdx cw = 26#5 ∨ cmdIdx cw = 27#5) := by
  have hdecode : decodeCommand cw = .wrRsvdA (cmdIdx cw) (cmdData cw) := decodeCommand_of_row (.wrRsvdA 26 0) h rfl
  exact ⟨hdecode, eq_of_isReservedA _ (wellFormed_of_decodeCommand hdecode)⟩

theorem decodeCommand_of_wrRsvdB_row (h : cw &&& 0x3C00000000#38 = 0x3C00000000#38) :
    decodeCommand cw = .wrRsvdB (cmdIdx cw) (cmdData cw) ∧ 28 ≤ (cmdIdx cw).toNat := by
  have hdecode : decodeCommand cw = .wrRsvdB (cmdIdx cw) (cmdData cw) := decodeCommand_of_row (.wrRsvdB 28 0) h rfl
  exact ⟨hdecode, toNat_ge_of_isReservedB _ (wellFormed_of_decodeCommand hdecode)⟩

end

/-! ### The words the spec writes out -/

/-- The number of a well-formed transaction's word decodes to it. -/
theorem decode_eq_ok {n : Nat} {i : Instr} (hwf : i.wellFormed = true) (hn : (encode i).toNat = n) :
    decode n = .ok i := by
  obtain ⟨-, hdecode, -⟩ := decodeUndoesEncode i hwf
  exact hn ▸ hdecode

/-- Settles O6: each number is that of its transaction's word. -/
theorem writtenOutWordsDecode : Obligations.WrittenOutWordsDecode :=
  ⟨decode_eq_ok rfl rfl, decode_eq_ok rfl rfl, decode_eq_ok rfl rfl, decode_eq_ok rfl rfl, decode_eq_ok rfl rfl,
    decode_eq_ok rfl rfl, decode_eq_ok rfl rfl, decode_eq_ok rfl rfl, decode_eq_ok rfl rfl, decode_eq_ok rfl rfl,
    decode_eq_ok rfl rfl, decode_eq_ok rfl rfl⟩

end Sys2Proof
end

section
/-! The transactions one by one (40_host_commands.md R51 to R60): what each answers, and what it leaves unchanged. -/

namespace Sys2Proof.Machine

/-! ### WR_BLOCK and WR_CTRL, the writes that reach the engine -/

/-- Settles O7: the write sets one block word of the engine before it, and START captures the block words. -/
theorem wrBlockStoresTheWord : Obligations.WrBlockStoresTheWord := by
  refine ⟨fun cw h => decodeCommand_of_row (.wrBlock 0 0) h rfl, fun i v s => ?_⟩
  have hstore (v : Word) (s : State) : ∃ t, exec (.wrBlock i v) s = .next t ∧
      t.engine = s.engine.setBlockWord i v ∧ t.inputs = s.inputs ∧ t.resetDone = s.resetDone :=
    exec_next (.wrBlock i v) s
  obtain ⟨t, hexec, hengine, hinputs, hreset⟩ := hstore v s
  have hword : t.engine.blockWord i = v := by simp [hengine, Engine.blockWord_setBlockWord]
  refine ⟨t, hexec, hword, fun k hk => ?_, ?_, hinputs, hreset, ?_, fun v' => ?_⟩
  · simp [hengine, Engine.blockWord_setBlockWord, hk]
  · exact hengine ▸ s.engine.setBlockWord_sameButBlock i v
  · exact hword
  · obtain ⟨t', hexec', hengine', -, -⟩ := hstore v' t
    exact ⟨t', hexec', by simp [hengine', Engine.blockWord_setBlockWord]⟩

/-- START is accepted when bit 0 is set and the engine is in IDLE (R55). -/
theorem acceptsStart_iff (d : Word) (e : Engine) :
    acceptsStart d e = true ↔ d.getLsbD 0 = true ∧ e.fsm = .idle := by
  simp [acceptsStart, startBit]

theorem transactionEngine_wrCtrl_accepted {d : Word} {e : Engine} (h : acceptsStart d e = true) :
    transactionEngine (.wrCtrl d) e = e.start := if_pos h

theorem transactionEngine_wrCtrl_ignored {d : Word} {e : Engine} (h : ¬ acceptsStart d e = true) :
    transactionEngine (.wrCtrl d) e = e := if_neg h

/-- Only bit 0 of WDATA is looked at. -/
theorem exec_wrCtrl_congr {d d' : Word} (h : d.getLsbD 0 = d'.getLsbD 0) (s : State) :
    exec (.wrCtrl d) s = exec (.wrCtrl d') s := by
  have haccepts : acceptsStart d s.engine = acceptsStart d' s.engine := by simp only [acceptsStart, startBit, h]
  simp only [exec, execWrCtrl, haccepts]

/-- Settles O11: an accepted CTRL write is the START step, and any other keeps the engine. -/
theorem wrCtrlStartsOnlyAnIdleEngine : Obligations.WrCtrlStartsOnlyAnIdleEngine := by
  refine ⟨fun cw h => decodeCommand_of_row (.wrCtrl 0) h rfl, fun d s hbit hidle => ?_, fun d s hnot => ?_,
    fun d d' s h => exec_wrCtrl_congr h s⟩
  · have haccepts : acceptsStart d s.engine = true := (acceptsStart_iff d s.engine).2 ⟨hbit, hidle⟩
    obtain ⟨t, hexec, hengine, hframe⟩ := exec_next (.wrCtrl d) s
    rw [transactionEngine_wrCtrl_accepted haccepts] at hengine
    exact ⟨t, hexec, hengine, by simp [Engine.busy_iff, hengine], hframe⟩
  · have hignored : ¬ acceptsStart d s.engine = true := by
      rw [acceptsStart_iff]
      rintro ⟨hbit, hidle⟩
      obtain hclear | hbusy := hnot
      · simp only [hbit, Bool.true_eq_false] at hclear
      · exact hbusy hidle
    obtain ⟨t, hexec, hengine, hframe⟩ := exec_next (.wrCtrl d) s
    exact ⟨t, hexec, hengine.trans (transactionEngine_wrCtrl_ignored hignored), hframe⟩

/-! ### The dropped writes -/

/-- Settles O10: WR_DIGEST leaves the engine as it was. -/
theorem wrDigestHasNoEffect : Obligations.WrDigestHasNoEffect :=
  ⟨fun _ h => decodeCommand_of_row (.wrDigest 0 0) h rfl, fun j d s => exec_next (.wrDigest j d) s⟩

/-- Settles O14: WR_STATUS leaves the engine as it was. -/
theorem wrStatusHasNoEffect : Obligations.WrStatusHasNoEffect :=
  ⟨fun _ h => decodeCommand_of_row (.wrStatus 0) h rfl, fun d s => exec_next (.wrStatus d) s⟩

/-! ### The reads -/

section
variable (d : Word) (s : State)

theorem exec_rdBlock (i : BitVec 4) : exec (.rdBlock i d) s = .next (s.drive s.engine.blockW[i.toNat]) := rfl

theorem exec_rdDigest (j : BitVec 3) : exec (.rdDigest j d) s = .next (s.drive s.engine.digest[j.toNat]) := rfl

theorem exec_rdCtrl : exec (.rdCtrl d) s = .next (s.drive 0#32) := rfl

theorem exec_rdStatus : exec (.rdStatus d) s = .next (s.drive s.engine.statusWord) := rfl

theorem exec_rdRsvdA (idx : WindowIndex) : exec (.rdRsvdA idx d) s = .next (s.drive 0#32) := rfl

theorem exec_rdRsvdB (idx : WindowIndex) : exec (.rdRsvdB idx d) s = .next (s.drive 0#32) := rfl

end

/-- Settles O8: the read drives the block word, and after reset the whole block is 0. -/
theorem rdBlockReturnsTheWord : Obligations.RdBlockReturnsTheWord := by
  refine ⟨fun cw h => decodeCommand_of_row (.rdBlock 0 0) h rfl, fun i d s => exec_rdBlock d s i, fun i d => ?_⟩
  have hzero : State.reset.engine.blockW[i.toNat] = 0#32 := Vector.getElem_replicate i.isLt
  rw [exec_rdBlock, hzero]
  rfl

/-- Settles O9: a step reads the window before the edge (O18), and that is the digest word at the index of RD_DIGEST. -/
theorem rdDigestReturnsTheWord : Obligations.RdDigestReturnsTheWord := by
  refine ⟨fun cw h => decodeCommand_of_row (.rdDigest 0 0) h rfl, fun j d s => exec_rdDigest d s j,
    fun s cw rest j d hreset hinputs hdecode => ?_⟩
  obtain ⟨-, hstepReads⟩ := readsReturnTheWindowBeforeTheEdge
  have hword : cw = encode (.rdDigest j d) := by rw [← hdecode, encode_decodeCommand]
  obtain ⟨t, hstep, hrdata, -⟩ := hstepReads s (.rdDigest j d) rest hreset rfl rfl (hword ▸ hinputs)
  exact ⟨t, hstep, hrdata.trans (windowRead_digestIdx s.engine j)⟩

/-- Settles O12: CTRL has no storage. -/
theorem rdCtrlReturnsZero : Obligations.RdCtrlReturnsZero :=
  ⟨fun _ h => decodeCommand_of_row (.rdCtrl 0) h rfl, exec_rdCtrl⟩

section
variable (e : Engine)

theorem Engine.statusWord_bit_zero : e.statusWord.getLsbD 0 = e.busy := by
  rw [Engine.statusWord, BitVec.getLsbD_setWidth, BitVec.getLsbD_append]
  simp

theorem Engine.statusWord_bit_one : e.statusWord.getLsbD 1 = e.done := by
  rw [Engine.statusWord, BitVec.getLsbD_setWidth, BitVec.getLsbD_append]
  simp

theorem Engine.statusWord_bit_of_two_le {k : Nat} (h : 2 ≤ k) : e.statusWord.getLsbD k = false := by
  rw [Engine.statusWord, BitVec.getLsbD_setWidth, BitVec.getLsbD_of_ge _ _ h, Bool.and_false]

end

/-- Settles O13: the STATUS word is driven, and its bits are DONE, BUSY and zeros. -/
theorem rdStatusReturnsDoneAndBusy : Obligations.RdStatusReturnsDoneAndBusy := by
  refine ⟨fun cw h => decodeCommand_of_row (.rdStatus 0) h rfl, fun d s => ?_, fun d => exec_rdStatus d State.reset⟩
  refine ⟨s.engine.statusWord, exec_rdStatus d s, s.engine.statusWord_bit_one, ?_,
    fun k => s.engine.statusWord_bit_of_two_le⟩
  rw [Engine.statusWord_bit_zero, Engine.busy_iff]

/-! ### The reserved indices -/

/-- Settles O15: both rows read 0. -/
theorem rdRsvdReturnsZero : Obligations.RdRsvdReturnsZero :=
  ⟨fun _ => decodeCommand_of_rdRsvdA_row, fun _ => decodeCommand_of_rdRsvdB_row,
    fun idx d s => ⟨exec_rdRsvdA d s idx, exec_rdRsvdB d s idx⟩⟩

/-- Settles O16: both rows leave the engine as it was, and a reserved index reads 0 in every state. -/
theorem wrRsvdHasNoEffect : Obligations.WrRsvdHasNoEffect := by
  refine ⟨fun _ => decodeCommand_of_wrRsvdA_row, fun _ => decodeCommand_of_wrRsvdB_row, fun idx d s => ⟨?_, ?_⟩⟩
  · obtain ⟨t, hexec, hengine, hinputs, hreset⟩ := exec_next (.wrRsvdA idx d) s
    exact ⟨t, hexec, hengine, hinputs, hreset, fun d' => exec_rdRsvdA d' t idx⟩
  · obtain ⟨t, hexec, hengine, hinputs, hreset⟩ := exec_next (.wrRsvdB idx d) s
    exact ⟨t, hexec, hengine, hinputs, hreset, fun d' => exec_rdRsvdB d' t idx⟩

end Sys2Proof.Machine
end

section
/-! The combinational functions of the datapath (41_datapath_functions.md R61 to R71, R73): sums as numbers, the other
functions bit by bit, and the schedule by its recurrence. -/

namespace Sys2Proof.Machine

/-! ### Sums -/

theorem toNat_add32 (x y : Word) : (add32 x y).toNat = (x.toNat + y.toNat) % 2 ^ 32 := BitVec.toNat_add x y

theorem add32_comm (x y : Word) : add32 x y = add32 y x := BitVec.add_comm x y

theorem add32_assoc (x y z : Word) : add32 (add32 x y) z = add32 x (add32 y z) := BitVec.add_assoc x y z

theorem toNat_foldr_add32 (l : List Word) : (l.foldr add32 0#32).toNat = (l.map BitVec.toNat).sum % 2 ^ 32 := by
  induction l with
  | nil => rfl
  | cons x xs ih => rw [List.foldr_cons, toNat_add32, ih, Nat.add_mod_mod, List.map_cons, List.sum_cons]

/-- An adder keeps a running sum modulo 2^32 one. -/
theorem toNat_add32_of_mod {x : Word} {n : Nat} (hx : x.toNat = n % 2 ^ 32) (y : Word) :
    (add32 x y).toNat = (n + y.toNat) % 2 ^ 32 := by
  rw [toNat_add32, hx, Nat.mod_add_mod]

theorem toNat_temp1 (e f g h k w : Word) : (temp1 e f g h k w).toNat =
    (h.toNat + (capSigma1 e).toNat + (choose e f g).toNat + k.toNat + w.toNat) % 2 ^ 32 :=
  toNat_add32_of_mod (toNat_add32_of_mod (toNat_add32_of_mod (toNat_add32 h (capSigma1 e)) _) k) w

/-- Settles O45: each adder is a true sum modulo 2^32, and the remainders taken on the way do not matter. -/
theorem sumsAreModulo32Bits : Obligations.SumsAreModulo32Bits :=
  ⟨toNat_add32, toNat_foldr_add32, fun x y z => ⟨add32_comm x y, add32_assoc x y z⟩, toNat_temp1⟩

/-! ### Rotation and shift -/

/-- The right shift gives the bits below the wrap, the left shift those above it. -/
theorem rotr_bit (x : Word) {n k : Nat} (hn : n ≤ 32) (hk : k < 32) :
    (rotr x n).getLsbD k = x.getLsbD ((k + n) % 32) := by
  rw [rotr, BitVec.getLsbD_or, BitVec.getLsbD_ushiftRight, BitVec.getLsbD_shiftLeft, Nat.add_comm n k]
  obtain hlow | hwrap := Nat.lt_or_ge (k + n) 32
  · have hleft : k < 32 - n := by omega
    simp [hleft, Nat.mod_eq_of_lt hlow]
  · have hleft : ¬ k < 32 - n := by omega
    have hindex : k - (32 - n) = (k + n) % 32 := by omega
    simp [hk, hleft, hindex, BitVec.getLsbD_of_ge x _ hwrap]

theorem rotr_zero (x : Word) : rotr x 0 = x := by
  refine BitVec.eq_of_getLsbD_eq fun k hk => ?_
  rw [rotr_bit x (by decide) hk, Nat.add_zero, Nat.mod_eq_of_lt hk]

theorem rotr_thirtyTwo (x : Word) : rotr x 32 = x := by
  refine BitVec.eq_of_getLsbD_eq fun k hk => ?_
  rw [rotr_bit x (by decide) hk, Nat.add_mod_right, Nat.mod_eq_of_lt hk]

/-- Settles O46: the identities are the bit rule at the amounts 0 and 32. -/
theorem rotationBitByBit : Obligations.RotationBitByBit :=
  ⟨fun x _ _ => rotr_bit x, fun x => ⟨rotr_zero x, rotr_thirtyTwo x⟩⟩

theorem shr_bit (x : Word) (n k : Nat) : (shr x n).getLsbD k = (decide (k + n ≤ 31) && x.getLsbD (k + n)) := by
  rw [shr, BitVec.getLsbD_ushiftRight, Nat.add_comm n k]
  by_cases hin : k + n ≤ 31
  · simp [hin]
  · simp [hin, BitVec.getLsbD_of_ge x (k + n) (by omega)]

/-- Settles O47: a bit shifted in from above bit 31 is 0. -/
theorem shiftBitByBit : Obligations.ShiftBitByBit := by
  intro x n k _
  rw [shr_bit, Bool.if_false_right]

/-! ### The sigma functions -/

section
variable (x : Word) {k : Nat}

theorem rotr_xor_rotr_xor_shr_bit {m n : Nat} (hm : m ≤ 32) (hn : n ≤ 32) (p : Nat) (hk : k < 32) :
    (rotr x m ^^^ rotr x n ^^^ shr x p).getLsbD k =
      (x.getLsbD ((k + m) % 32) ^^ x.getLsbD ((k + n) % 32) ^^ (k + p ≤ 31 && x.getLsbD (k + p))) := by
  rw [BitVec.getLsbD_xor, BitVec.getLsbD_xor, rotr_bit x hm hk, rotr_bit x hn hk, shr_bit]

theorem rotr_xor_rotr_xor_rotr_bit {m n p : Nat} (hm : m ≤ 32) (hn : n ≤ 32) (hp : p ≤ 32) (hk : k < 32) :
    (rotr x m ^^^ rotr x n ^^^ rotr x p).getLsbD k =
      (x.getLsbD ((k + m) % 32) ^^ x.getLsbD ((k + n) % 32) ^^ x.getLsbD ((k + p) % 32)) := by
  rw [BitVec.getLsbD_xor, BitVec.getLsbD_xor, rotr_bit x hm hk, rotr_bit x hn hk, rotr_bit x hp hk]

end

/-- Settles O49: each sigma is three rotations or shifts, and XOR works bit by bit. -/
theorem sigmasBitByBit : Obligations.SigmasBitByBit := fun x _ hk =>
  ⟨rotr_xor_rotr_xor_shr_bit x (by decide) (by decide) 3 hk, rotr_xor_rotr_xor_shr_bit x (by decide) (by decide) 10 hk,
    rotr_xor_rotr_xor_rotr_bit x (by decide) (by decide) (by decide) hk,
    rotr_xor_rotr_xor_rotr_bit x (by decide) (by decide) (by decide) hk⟩

/-! ### Ch and Maj -/

theorem choose_bit (e f g : Word) (k : Nat) :
    (choose e f g).getLsbD k = if e.getLsbD k then f.getLsbD k else g.getLsbD k := by
  obtain hk | hk := Nat.lt_or_ge k 32
  · rw [choose, BitVec.getLsbD_xor, BitVec.getLsbD_and, BitVec.getLsbD_and, BitVec.getLsbD_not]
    cases e.getLsbD k <;> simp [hk]
  · simp [BitVec.getLsbD_of_ge _ k hk]

theorem majority_bit (a b c : Word) (k : Nat) : (majority a b c).getLsbD k =
    decide (2 ≤ (a.getLsbD k).toNat + (b.getLsbD k).toNat + (c.getLsbD k).toNat) := by
  have vote : ∀ p q r : Bool, (p && q ^^ p && r ^^ q && r) = decide (2 ≤ p.toNat + q.toNat + r.toNat) := by decide
  rw [majority, BitVec.getLsbD_xor, BitVec.getLsbD_xor, BitVec.getLsbD_and, BitVec.getLsbD_and, BitVec.getLsbD_and]
  exact vote ..

theorem majority_swap_left (a b c : Word) : majority a b c = majority b a c := by
  refine BitVec.eq_of_getLsbD_eq fun k _ => ?_
  rw [majority_bit, majority_bit, Nat.add_comm (a.getLsbD k).toNat]

theorem majority_swap_right (a b c : Word) : majority a b c = majority a c b := by
  refine BitVec.eq_of_getLsbD_eq fun k _ => ?_
  rw [majority_bit, majority_bit, Nat.add_right_comm]

/-- Settles O48: the symmetry of Maj is that of the count of votes. -/
theorem chooseSelectsAndMajorityVotes : Obligations.ChooseSelectsAndMajorityVotes :=
  ⟨choose_bit, majority_bit, fun a b c => ⟨majority_swap_left a b c, majority_swap_right a b c⟩⟩

/-! ### The schedule -/

theorem scheduleAt_of_ge (block : Vector Word 16) {i : Nat} (h : 64 ≤ i) : scheduleAt block i = 0#32 :=
  List.getD_eq_default _ _ (by simpa using h)

/-- Four zero words are followed by a zero word, as both small sigmas of 0 are 0. -/
theorem scheduleWord_zero : scheduleWord 0#32 0#32 0#32 0#32 = 0#32 := by decide

theorem scheduleAt_zero_block (i : Nat) : scheduleAt (Vector.replicate 16 0#32) i = 0#32 := by
  induction i using Nat.strongRecOn with
  | ind i ih =>
    obtain hblock | hnext | hpast : i < 16 ∨ (16 ≤ i ∧ i - 16 < 48) ∨ 64 ≤ i := by omega
    · rw [scheduleAt_block _ hblock, Vector.getElem_replicate]
    · obtain ⟨n, rfl⟩ := Nat.exists_eq_add_of_le' hnext.1
      rw [scheduleAt_add_sixteen _ (by omega), ih (n + 14) (by omega), ih (n + 9) (by omega), ih (n + 1) (by omega),
        ih n (by omega), scheduleWord_zero]
    · exact scheduleAt_of_ge _ hpast

/-- Settles O50: the recurrence is that of `scheduleAt_add_sixteen`, its indices counted back from `i`. -/
theorem scheduleRecurrence : Obligations.ScheduleRecurrence := by
  refine ⟨fun b i => scheduleAt_block b, fun b i hge hle => ?_, scheduleAt_zero_block⟩
  obtain ⟨n, rfl⟩ := Nat.exists_eq_add_of_le' hge
  exact scheduleAt_add_sixteen b (by omega)

end Sys2Proof.Machine
end

section
/-! The edges of the sequencer, one for each of its states (42_sequencer.md R77 to R83, R89): what an edge writes, from
the values before it. -/

namespace Sys2Proof.Machine

/-- Settles O20: no transaction stops, and the sequencer's step goes over its engine. -/
theorem stepRunsTheDecodedTransaction : Obligations.StepRunsTheDecodedTransaction := by
  intro s i rest hreset hwf hinputs
  have hpop : { s with inputs := rest } = s.popCycle := by simp [State.popCycle, hinputs]
  obtain ⟨t, hexec, -, -, -⟩ := exec_next i s.popCycle
  exact ⟨t, hpop ▸ hexec, by rw [step_of_encode hreset hwf hinputs, hexec]; rfl⟩

/-! ### IDLE -/

/-- Settles O23: in IDLE the edge is the transaction's alone, and one that is no START reaches `BLOCK_W` alone. -/
theorem idleEngineKeepsItsResult : Obligations.IdleEngineKeepsItsResult := by
  intro s hreset hidle hrst hstart
  obtain ⟨t, hstep, hengine, -, -⟩ := step_next hreset hrst
  rw [sequencerStep_idle _ hidle] at hengine
  have hnoStart : ¬ (s.engine.fsm = .idle ∧ s.nextCycle.IsStart) := fun ⟨_, hcycle⟩ => hstart hcycle
  exact ⟨t, hstep, hengine ▸ cycleEngine_sameButBlock hrst hnoStart⟩

/-- The edge of an accepted START is the START step. -/
theorem step_of_startsNow {s : State} (h : s.StartsNow) : ∃ t, step s = .next t ∧ t.engine = s.engine.start := by
  obtain ⟨hreset, hidle, hcycle⟩ := h
  obtain ⟨hrst, -⟩ := id hcycle
  obtain ⟨t, hstep, hengine, -, -⟩ := step_next hreset hrst
  exact ⟨t, hstep, by rw [hengine, sequencerStep_idle _ hidle, cycleEngine_of_isStart hcycle hidle]⟩

/-- Settles O24: the START step, register by register. -/
theorem acceptedStartLoadsTheEngine : Obligations.AcceptedStartLoadsTheEngine := by
  intro s hstart
  obtain ⟨t, hstep, hengine⟩ := step_of_startsNow hstart
  refine ⟨t, hstep, ?_⟩
  rw [hengine]
  exact ⟨s.engine.start_work, fun k hk => rfl, s.engine.start_rnd, s.engine.start_fsm, s.engine.start_done,
    s.engine.start_digest, s.engine.start_blockW⟩

/-! ### ROUND -/

/-- The round datapath as two sums (R71, R72, R74). -/
theorem roundFn_eq (k : Word) (r : Working) (w : Word) : roundFn k r w =
    ⟨(r.h + capSigma1 r.e + choose r.e r.f r.g + k + w) + (capSigma0 r.a + majority r.a r.b r.c), r.a, r.b, r.c,
      r.d + (r.h + capSigma1 r.e + choose r.e r.f r.g + k + w), r.e, r.f, r.g⟩ := rfl

theorem scheduleWord_eq (w2 w7 w15 w16 : Word) :
    scheduleWord w2 w7 w15 w16 = smallSigma1 w2 + w7 + smallSigma0 w15 + w16 := rfl

theorem rnd_eq_last_iff (r : BitVec 6) : r = 63#6 ↔ r.toNat = 63 := BitVec.toNat_inj.symm

theorem rnd_succ_toNat (r : BitVec 6) : (r + 1#6).toNat = (r.toNat + 1) % 64 := BitVec.toNat_add r 1#6

/-- Settles O25: the sequencer's part is a function of the engine before the edge, and the transaction of a busy engine
keeps DIGEST, DONE and FSM. -/
theorem roundEdgeWritesOneRound : Obligations.RoundEdgeWritesOneRound := by
  intro s hreset hround hrst
  obtain ⟨t, hstep, hengine, -, -⟩ := step_next hreset hrst
  obtain ⟨hdigest, hdone, hfsm, -⟩ := cycleEngine_sameButBlock_of_busy s.nextCycle (e := s.engine) (by simp [hround])
  rw [sequencerStep_round _ hround] at hengine
  refine ⟨t, hstep, ?_⟩
  rw [hengine]
  refine ⟨roundFn_eq _ _ _, fun k hk => shiftWindow_lower _ k hk, ?_, rnd_succ_toNat _, ?_, hdigest, hdone⟩
  · exact (shiftWindow_top _).trans (scheduleWord_eq _ _ _ _)
  · simp only [roundEdge_fsm, rnd_eq_last_iff, hfsm, hround]

/-! ### FINAL -/

/-- Settles O26: the digest words are those of the finalizer, and the transaction of a busy engine keeps the datapath
registers. -/
theorem finalEdgeWritesTheDigest : Obligations.FinalEdgeWritesTheDigest := by
  intro s hreset hfinal hrst
  obtain ⟨t, hstep, hengine, -, -⟩ := step_next hreset hrst
  obtain ⟨-, -, -, hrnd, hwork, hsw⟩ := cycleEngine_sameButBlock_of_busy s.nextCycle (e := s.engine) (by simp [hfinal])
  rw [sequencerStep_final _ hfinal] at hengine
  refine ⟨t, hstep, ?_⟩
  rw [hengine]
  exact ⟨rfl, rfl, rfl, rfl, rfl, rfl, rfl, rfl, rfl, rfl, hwork, hsw, hrnd⟩

/-! ### The transitions -/

/-- Settles O27: a case for each state of the sequencer before the edge. -/
theorem sequencerTransitions : Obligations.SequencerTransitions := by
  intro s t hstep
  obtain ⟨hrst, rfl⟩ | ⟨hrst, hreset, hengine, -, -⟩ := step_cases hstep
  · exact ⟨fun _ => rfl, fun hr => by simp [hrst] at hr⟩
  · refine ⟨fun hr => by simp [hrst] at hr, fun _ => ⟨fun hidle => ⟨fun hstart => ?_, fun hstart => ?_⟩,
      fun hround => ?_, fun hfinal => ?_⟩⟩
    · obtain ⟨-, -, hcycle⟩ := hstart
      rw [hengine, sequencerStep_idle _ hidle, cycleEngine_of_isStart hcycle hidle, Engine.start_fsm]
    · have hnoStart : ¬ (s.engine.fsm = .idle ∧ s.nextCycle.IsStart) := fun h => hstart ⟨hreset, h⟩
      obtain ⟨-, -, hfsm, -⟩ := cycleEngine_sameButBlock hrst hnoStart
      rw [hengine, sequencerStep_idle _ hidle, hfsm, hidle]
    · obtain ⟨-, -, hfsm, -⟩ := cycleEngine_sameButBlock_of_busy s.nextCycle (e := s.engine) (by simp [hround])
      have hlast : s.engine.rnd = 63#6 ↔ ¬ s.engine.rnd.toNat < 63 := by bv_omega
      rw [hengine, sequencerStep_round _ hround, roundEdge_fsm, hfsm, hround]
      simp only [hlast, ite_not]
    · rw [hengine, sequencerStep_final _ hfinal, finalEdge_fsm]

end Sys2Proof.Machine
end

section
/-! A computation in progress is out of the host's reach (42_sequencer.md R87): transactions differ in `BLOCK_W` alone,
which the sequencer does not read. -/

namespace Sys2Proof.Machine

/-! ### Engines that differ in the block alone -/

section
variable {x x' y y' z : Engine}

theorem Engine.SameButBlock.symm (h : x.SameButBlock y) : y.SameButBlock x := by
  obtain ⟨hdigest, hdone, hfsm, hrnd, hwork, hsw⟩ := h
  exact ⟨hdigest.symm, hdone.symm, hfsm.symm, hrnd.symm, hwork.symm, hsw.symm⟩

theorem Engine.SameButBlock.trans (hxy : x.SameButBlock y) (hyz : y.SameButBlock z) : x.SameButBlock z := by
  obtain ⟨hdigest, hdone, hfsm, hrnd, hwork, hsw⟩ := hxy
  obtain ⟨hdigest', hdone', hfsm', hrnd', hwork', hsw'⟩ := hyz
  exact ⟨hdigest.trans hdigest', hdone.trans hdone', hfsm.trans hfsm', hrnd.trans hrnd', hwork.trans hwork',
    hsw.trans hsw'⟩

theorem roundEdge_sameButBlock (hx : x.SameButBlock x') (hy : y.SameButBlock y') :
    (roundEdge x y).SameButBlock (roundEdge x' y') := by
  obtain ⟨-, -, -, hrnd, hwork, hsw⟩ := hx
  obtain ⟨hdigest, hdone, hfsm, -, -, -⟩ := hy
  exact ⟨hdigest, hdone, by simp [hrnd, hfsm], by simp [hrnd], by simp [hrnd, hwork, hsw], by simp [hsw]⟩

theorem finalEdge_sameButBlock (hx : x.SameButBlock x') (hy : y.SameButBlock y') :
    (finalEdge x y).SameButBlock (finalEdge x' y') := by
  obtain ⟨-, -, -, -, hwork, -⟩ := hx
  obtain ⟨-, -, -, hrnd, hwork', hsw⟩ := hy
  exact ⟨by simp [hwork], rfl, rfl, hrnd, hwork', hsw⟩

/-- The sequencer's step reads no block word of the engine before the edge, and writes none. -/
theorem sequencerStep_sameButBlock (hx : x.SameButBlock x') (hy : y.SameButBlock y') :
    (sequencerStep x y).SameButBlock (sequencerStep x' y') := by
  obtain ⟨-, -, hfsm, -⟩ := id hx
  cases hf : x.fsm with
  | idle => rwa [sequencerStep_idle y hf, sequencerStep_idle y' (hfsm.symm.trans hf)]
  | round =>
    rw [sequencerStep_round y hf, sequencerStep_round y' (hfsm.symm.trans hf)]
    exact roundEdge_sameButBlock hx hy
  | final =>
    rw [sequencerStep_final y hf, sequencerStep_final y' (hfsm.symm.trans hf)]
    exact finalEdge_sameButBlock hx hy

end

/-! ### Transactions of a busy engine -/

/-- In a busy engine a transaction is WR_BLOCK or changes nothing. -/
theorem transactionEngine_eq_or_wrBlock (i : Instr) {e : Engine} (h : e.fsm ≠ .idle) :
    transactionEngine i e = e ∨ ∃ k v, i = .wrBlock k v := by
  cases i with
  | wrBlock k v => exact .inr ⟨k, v, rfl⟩
  | wrCtrl d =>
    have hignored : ¬ acceptsStart d e = true := by simp [acceptsStart_iff, h]
    exact .inl (transactionEngine_wrCtrl_ignored hignored)
  | _ => exact .inl rfl

/-- Settles O30: each transaction leaves its busy engine the same but for the block, and the sequencer's steps are then
the same. -/
theorem busyComputationIsIsolated : Obligations.BusyComputationIsIsolated := by
  refine ⟨fun i s t hbusy hexec => ?_, fun s s' hreset hreset' hbusy hsame hrst hrst' => ?_⟩
  · rw [Engine.busy_iff] at hbusy
    obtain ⟨t', hexec', hengine, -, -⟩ := exec_next i s
    obtain rfl : t = t' := by simpa [hexec] using hexec'
    rw [hengine]
    exact ⟨transactionEngine_busy i s.engine hbusy, transactionEngine_eq_or_wrBlock i hbusy⟩
  · rw [Engine.busy_iff] at hbusy
    obtain ⟨-, -, hfsm, -⟩ := id hsame
    have hbusy' : s'.engine.fsm ≠ .idle := hfsm ▸ hbusy
    have hafter : (cycleEngine s.nextCycle s.engine).SameButBlock (cycleEngine s'.nextCycle s'.engine) :=
      (cycleEngine_sameButBlock_of_busy _ hbusy).trans
        (hsame.trans (cycleEngine_sameButBlock_of_busy _ hbusy').symm)
    obtain ⟨t, hstep, hengine, -, -⟩ := step_next hreset hrst
    obtain ⟨t', hstep', hengine', -, -⟩ := step_next hreset' hrst'
    exact ⟨t, t', hstep, hstep', by rw [hengine, hengine']; exact sequencerStep_sameButBlock hsame hafter⟩

end Sys2Proof.Machine
end

section
/-! A whole computation (42_sequencer.md R84, R85, R88): a run is extended by one edge at a time, and after `i` edges
from START the engine stands at round `i` of the reference on the captured block. -/

namespace Sys2Proof.Machine

/-! ### Runs -/

/-- Every step takes one cycle from the inputs and leaves a machine that has been reset. -/
theorem step_frame {s t : State} (h : step s = .next t) : t.inputs = s.inputs.tail ∧ t.resetDone = true := by
  obtain ⟨-, rfl⟩ | ⟨-, -, -, hinputs, hreset⟩ := step_cases h
  · exact ⟨rfl, rfl⟩
  · exact ⟨hinputs, hreset⟩

theorem runFor_succ {s t : State} (n : Nat) (h : step s = .next t) : runFor (n + 1) s = runFor n t := by
  simp [runFor, h]

theorem runFor_succ_eq_next_iff {n : Nat} {s u : State} :
    runFor (n + 1) s = .next u ↔ ∃ t, step s = .next t ∧ runFor n t = .next u := by
  rw [runFor]
  cases step s <;> simp

/-- `runFor` takes its first step first; a run is extended at its end as well. -/
theorem runFor_succ_of_runFor {n : Nat} {s t u : State} (hrun : runFor n s = .next t) (hstep : step t = .next u) :
    runFor (n + 1) s = .next u := by
  induction n generalizing s with
  | zero =>
    cases hrun
    rw [runFor_succ 0 hstep, runFor]
  | succ n ih =>
    obtain ⟨m, hfirst, hrest⟩ := runFor_succ_eq_next_iff.1 hrun
    rw [runFor_succ _ hfirst, ih hrest]

/-- A run of `n` edges takes `n` cycles from the inputs, and a machine that has been reset stays one. -/
theorem runFor_frame {n : Nat} {s t : State} (hd : s.resetDone = true) (hrun : runFor n s = .next t) :
    t.inputs = s.inputs.drop n ∧ t.resetDone = true := by
  induction n generalizing s with
  | zero =>
    cases hrun
    exact ⟨rfl, hd⟩
  | succ n ih =>
    obtain ⟨m, hfirst, hrest⟩ := runFor_succ_eq_next_iff.1 hrun
    obtain ⟨hinputs, hreset⟩ := step_frame hfirst
    obtain ⟨hinputs', hreset'⟩ := ih hreset hrest
    exact ⟨by rw [hinputs', hinputs, List.drop_tail], hreset'⟩

theorem NoReset.take_mono {m n : Nat} {cs : List PortCycle} (hmn : m ≤ n) (h : NoReset (cs.take n)) :
    NoReset (cs.take m) :=
  fun c hc => h c (List.take_subset_take_left cs hmn hc)

/-- Past the end of the list nothing is presented, no reset either. -/
theorem rst_of_noReset {n : Nat} {cs : List PortCycle} (h : NoReset (cs.take (n + 1))) :
    ((cs.drop n).headD PortCycle.idle).rst = false := by
  rw [List.headD_eq_head?_getD, List.head?_drop]
  cases hc : cs[n]? with
  | none => rfl
  | some c =>
    have hmem : (cs.take (n + 1))[n]? = some c := by rw [List.getElem?_take_of_lt n.lt_succ_self, hc]
    exact h c (List.mem_of_getElem? hmem)

/-- A run without reset goes on for one more edge: some cycle's transaction and the sequencer's step. -/
theorem runFor_succ_next {n : Nat} {s t : State} (hd : s.resetDone = true) (hr : NoReset (s.inputs.take (n + 1)))
    (hrun : runFor n s = .next t) : ∃ u, runFor (n + 1) s = .next u ∧
      u.engine = sequencerStep t.engine (cycleEngine t.nextCycle t.engine) := by
  obtain ⟨hinputs, hreset⟩ := runFor_frame hd hrun
  have hrst : t.nextCycle.rst = false := by rw [State.nextCycle, hinputs, rst_of_noReset hr]
  obtain ⟨u, hstep, hengine, -, -⟩ := step_next hreset hrst
  exact ⟨u, runFor_succ_of_runFor hrun hstep, hengine⟩

/-! ### The rounds -/

/-- The engine is in ROUND and stands at round `i` of the reference on `block`. -/
def Engine.AtRound (e : Engine) (block : Vector Word 16) (i : Nat) : Prop :=
  e.fsm = .round ∧ e.rnd.toNat = i ∧ e.RoundOf block

theorem Engine.start_atRound (e : Engine) : e.start.AtRound e.blockW 0 := ⟨rfl, rfl, e.start_roundOf⟩

section
variable {e : Engine} {block : Vector Word 16}

theorem Engine.AtRound.succ {i : Nat} (h : e.AtRound block i) (hi : i < 63) (c : PortCycle) :
    (sequencerStep e (cycleEngine c e)).AtRound block (i + 1) := by
  obtain ⟨hround, rfl, hblock⟩ := h
  obtain ⟨-, -, hfsm, -⟩ := cycleEngine_sameButBlock_of_busy c (e := e) (by simp [hround])
  have hnotLast : e.rnd ≠ 63#6 := by
    rw [Ne, rnd_eq_last_iff]
    exact hi.ne
  rw [sequencerStep_round _ hround]
  refine ⟨by simp [hnotLast, hfsm, hround], ?_, roundEdge_roundOf hblock hnotLast _⟩
  rw [roundEdge_rnd, rnd_succ_toNat, Nat.mod_eq_of_lt (Nat.succ_lt_succ hi)]

theorem Engine.AtRound.final (h : e.AtRound block 63) (c : PortCycle) :
    (sequencerStep e (cycleEngine c e)).fsm = .final ∧
      (sequencerStep e (cycleEngine c e)).work = workAfter block 64 := by
  obtain ⟨hround, hrnd, hblock⟩ := h
  rw [sequencerStep_round _ hround, roundEdge_work_of_roundOf hblock, hrnd]
  exact ⟨by simp [(rnd_eq_last_iff _).2 hrnd], rfl⟩

end

/-- `i` edges after the edge of an accepted START. -/
theorem runFor_atRound {s : State} (hstart : s.StartsNow) {i : Nat} (hi : i ≤ 63)
    (hr : NoReset (s.inputs.take (i + 1))) : ∃ t, runFor (i + 1) s = .next t ∧ t.engine.AtRound s.engine.blockW i := by
  induction i with
  | zero =>
    obtain ⟨t, hstep, hengine⟩ := step_of_startsNow hstart
    exact ⟨t, runFor_succ 0 hstep, hengine ▸ s.engine.start_atRound⟩
  | succ i ih =>
    obtain ⟨t, hrun, hround⟩ := ih (by omega) (hr.take_mono (by omega))
    obtain ⟨hd, -, -⟩ := hstart
    obtain ⟨u, hrun', hengine⟩ := runFor_succ_next hd hr hrun
    exact ⟨u, hrun', hengine ▸ hround.succ hi t.nextCycle⟩

/-- Settles O41: at round `i` the window holds the words from `W[i]` on. -/
theorem windowHoldsTheSchedule : Obligations.WindowHoldsTheSchedule := by
  intro s i hstart hi hr
  obtain ⟨t, hrun, hround, rfl, -, hsw⟩ := runFor_atRound hstart hi hr
  exact ⟨t, hrun, hround, rfl, hsw⟩

/-- Settles O42: 63 edges after START the engine stands at the last round; the edge of that round leaves the reference's
working values, and the FINAL edge delivers them. -/
theorem computationDeliversCompress : Obligations.ComputationDeliversCompress := by
  intro s hstart hr
  obtain ⟨hd, -⟩ := id hstart
  obtain ⟨t, hrun, hround⟩ := runFor_atRound hstart le_rfl (hr.take_mono (by decide))
  obtain ⟨u, hrun', hlast⟩ := runFor_succ_next hd (hr.take_mono (by decide)) hrun
  obtain ⟨hfinal, hwork⟩ := hround.final t.nextCycle
  rw [← hlast] at hfinal hwork
  obtain ⟨v, hrun'', hend⟩ := runFor_succ_next hd hr hrun'
  rw [sequencerStep_final _ hfinal] at hend
  refine ⟨v, hrun'', ?_⟩
  rw [hend]
  exact ⟨rfl, rfl, by rw [finalEdge_digest, hwork, compress]⟩

/-- Settles O44: both digests are `compress` of the one block (O42). -/
theorem digestDependsOnTheBlockOnly : Obligations.DigestDependsOnTheBlockOnly := by
  intro s s' hstart hstart' hblock hr hr'
  obtain ⟨t, hrun, -, -, hdigest⟩ := computationDeliversCompress s hstart hr
  obtain ⟨t', hrun', -, -, hdigest'⟩ := computationDeliversCompress s' hstart' hr'
  exact ⟨t, t', hrun, hrun', by rw [hdigest, hdigest', hblock]⟩

end Sys2Proof.Machine
end

section
/-! Nothing faults, and what a transaction can reach (60_exceptions.md R90, R93): every transaction is silently taken or
silently dropped, and a machine that has been reset never stops. -/

namespace Sys2Proof.Machine

/-! ### No stop after a reset -/

/-- A machine that has been reset takes its edge, a reset edge or any other. -/
theorem step_next_of_resetDone {s : State} (hd : s.resetDone = true) :
    ∃ t, step s = .next t ∧ t.resetDone = true := by
  obtain ⟨-, hedge⟩ | ⟨-, hnone, -⟩ | ⟨-, -, t, hedge, -, -, hreset⟩ := clockEdge_cases s.nextCycle s.popCycle
  · exact ⟨_, hedge, resetEdge_resetDone _⟩
  · simp [hd] at hnone
  · exact ⟨t, hedge, hreset⟩

theorem runFor_next {s : State} (hd : s.resetDone = true) (n : Nat) : ∃ t, runFor n s = .next t := by
  induction n generalizing s with
  | zero => exact ⟨s, rfl⟩
  | succ n ih =>
    obtain ⟨t, hstep, hreset⟩ := step_next_of_resetDone hd
    rw [runFor_succ n hstep]
    exact ih hreset

/-- Settles O17: a fault has no constructor, every transaction is taken, and a reset machine goes on, edge by edge. -/
theorem nothingFaults : Obligations.NothingFaults := by
  refine ⟨⟨fun f => nomatch f⟩, fun cw s => ?_, fun s => step_next_of_resetDone, fun n s hd => runFor_next hd n⟩
  obtain ⟨t, hexec, -⟩ := exec_next (decodeCommand cw) s
  exact ⟨t, hexec⟩

/-! ### The transactions that reach the engine -/

/-- `exec_next`, for a state that `exec` is known to answer. -/
theorem exec_frame {i : Instr} {s t : State} (h : exec i s = .next t) :
    t.engine = transactionEngine i s.engine ∧ t.inputs = s.inputs ∧ t.resetDone = s.resetDone := by
  obtain ⟨t', hexec, hframe⟩ := exec_next i s
  obtain rfl : t = t' := by simpa [h] using hexec
  exact hframe

/-- A transaction keeps the engine unless it is WR_BLOCK or an accepted START (R93). -/
theorem transactionEngine_cases (i : Instr) (e : Engine) :
    transactionEngine i e = e ∨ (∃ k v, i = .wrBlock k v) ∨ ∃ d, i = .wrCtrl d ∧ acceptsStart d e = true := by
  cases i with
  | wrBlock k v => exact .inr (.inl ⟨k, v, rfl⟩)
  | wrCtrl d =>
    by_cases haccepts : acceptsStart d e = true
    · exact .inr (.inr ⟨d, rfl, haccepts⟩)
    · exact .inl (transactionEngine_wrCtrl_ignored haccepts)
  | _ => exact .inl rfl

/-- Settles O19: the engine after a transaction is `transactionEngine`, and the other fields are framed. -/
theorem onlyBlockWritesAndStartsChangeTheEngine : Obligations.OnlyBlockWritesAndStartsChangeTheEngine := by
  intro i s t hexec
  obtain ⟨hengine, hframe⟩ := exec_frame hexec
  simp only [hengine, ← acceptsStart_iff]
  exact ⟨hframe, transactionEngine_cases i s.engine⟩

end Sys2Proof.Machine
end

section
/-! Engine copies on one clock (60_exceptions.md R96): an edge of the platform is the step of each copy alone. -/

namespace Sys2Proof.Machine

/-- The platform's edge answers `q` exactly when the copies, one by one, step to those of `q`. -/
theorem platformStep_eq_next_iff {p q : Platform} :
    Platform.step p = .next q ↔ List.Forall₂ (fun s t => step s = .next t) p q := by
  induction p generalizing q with
  | nil => simp [Platform.step, eq_comm]
  | cons s rest ih =>
    rw [Platform.step, List.forall₂_cons_left_iff]
    simp only [← ih]
    cases step s with
    | fault f => simp
    | refused r => simp
    | next t => cases Platform.step rest <;> simp [eq_comm]

/-- Copies that have been reset all take the edge. -/
theorem platformStep_next {p : Platform} (h : ∀ s ∈ p, s.resetDone = true) :
    ∃ q, Platform.step p = .next q ∧ ∀ s ∈ q, s.resetDone = true := by
  induction p with
  | nil => exact ⟨[], rfl, h⟩
  | cons s rest ih =>
    obtain ⟨hd, hrest⟩ := List.forall_mem_cons.1 h
    obtain ⟨t, hstep, hreset⟩ := step_next_of_resetDone hd
    obtain ⟨ts, hsteps, hresets⟩ := ih hrest
    exact ⟨t :: ts, platformStep_eq_next_iff.2 (.cons hstep (platformStep_eq_next_iff.1 hsteps)),
      List.forall_mem_cons.2 ⟨hreset, hresets⟩⟩

/-- Settles O54: the copies before and after the edge correspond one to one, by each copy's own step. -/
theorem engineCopiesAreIndependent : Obligations.EngineCopiesAreIndependent := by
  refine ⟨fun p q hedge => ?_, fun p => platformStep_next⟩
  have hcopies : List.Forall₂ (fun s t => step s = .next t) p q := platformStep_eq_next_iff.1 hedge
  have hlength : q.length = p.length := hcopies.length_eq.symm
  refine ⟨hlength, fun n s hs => ?_⟩
  obtain ⟨hn, rfl⟩ := List.getElem?_eq_some_iff.1 hs
  have hnq : n < q.length := hlength ▸ hn
  exact ⟨q[n], List.getElem?_eq_getElem hnq, hcopies.get hn hnq⟩

end Sys2Proof.Machine
end

section
/-! The reset edge and the state after it (70_reset_and_hazards.md R98 to R100). -/

namespace Sys2Proof.Machine

/-! ### The steps that are no sequencer step -/

theorem step_of_rst {s : State} (h : s.nextCycle.rst = true) : step s = .next (resetEdge s.popCycle) := if_pos h

theorem step_of_not_resetDone {s : State} (hd : s.resetDone = false) (hr : s.nextCycle.rst = false) :
    step s = .refused .noResetSincePowerOn := by
  simp [step, clockEdge, hr, hd]

/-- Settles O33: a reset edge is `resetEdge`, whatever the cycle's transaction, and writes the five registers. -/
theorem resetEdgeResets : Obligations.ResetEdgeResets := fun s hrst =>
  ⟨resetEdge s.popCycle, step_of_rst hrst, resetEdge_fsm _, resetEdge_rnd _, resetEdge_done _,
    fun _ hk => Vector.getElem_replicate hk, fun _ hk => Vector.getElem_replicate hk, resetEdge_resetDone _, rfl⟩

/-- Settles O35: without a reset edge the step is refused, and a reset edge records that there has been one. -/
theorem runWithoutResetIsRefused : Obligations.RunWithoutResetIsRefused := fun _ hd =>
  ⟨step_of_not_resetDone hd, fun hrst => ⟨_, step_of_rst hrst, resetEdge_resetDone _⟩⟩

/-! ### Right after reset -/

/-- Every region of the window reads 0: BLOCK_W and DIGEST are cleared, and STATUS shows neither DONE nor BUSY. -/
theorem windowRead_reset (idx : WindowIndex) : windowRead State.reset.engine idx = 0#32 := by
  unfold windowRead
  split_ifs
  · exact Vector.getElem_replicate _
  · exact Vector.getElem_replicate _
  · rfl
  · rfl
  · rfl

/-- Settles O34: the step of an idle engine with nothing presented keeps the engine (O22). -/
theorem stateAfterReset : Obligations.StateAfterReset := by
  obtain ⟨t, hstep, -, -, hkept⟩ := idleCycleStepsTheSequencerOnly State.reset rfl rfl
  exact ⟨rfl, rfl, rfl, rfl, windowRead_reset, t, hstep, hkept rfl⟩

/-- Settles O40: the engine right after reset is idle, with no result. -/
theorem datapathInvariantAtReset : Obligations.DatapathInvariantAtReset :=
  (Engine.datapathOk_idle (e := State.reset.engine) rfl).2 fun hdone => Bool.noConfusion hdone

end Sys2Proof.Machine
end

section
/-! The control registers over one edge (42_sequencer.md R89; 70_reset_and_hazards.md R103, R106): a START reaches them
in IDLE alone, and they depend on no data register. -/

namespace Sys2Proof.Machine

/-! ### A START presented to a busy engine -/

theorem cycleEngine_of_isStart_busy {c : PortCycle} (hc : c.IsStart) {e : Engine} (h : e.fsm ≠ .idle) :
    cycleEngine c e = e := by
  obtain ⟨-, cw, d, htxn, hdecode, -⟩ := hc
  have hignored : ¬ acceptsStart d e = true := by simp [acceptsStart_iff, h]
  simp only [cycleEngine, htxn, hdecode, transactionEngine_wrCtrl_ignored hignored]

/-- Settles O31: in either cycle the sequencer's step is laid over the engine before the edge. -/
theorem startWhileBusyIsDropped : Obligations.StartWhileBusyIsDropped := by
  intro s c rest hreset hbusy hcycle
  obtain ⟨hrst, -⟩ := id hcycle
  obtain ⟨t, hstep, hengine, -, -⟩ := step_next (s := { s with inputs := c :: rest }) hreset hrst
  obtain ⟨t', hstep', hengine', -, -⟩ := step_next (s := { s with inputs := PortCycle.idle :: rest }) hreset rfl
  have hdropped : cycleEngine c s.engine = s.engine := cycleEngine_of_isStart_busy hcycle (s.engine.busy_iff.1 hbusy)
  refine ⟨t, t', hstep, hstep', ?_⟩
  calc t.engine = sequencerStep s.engine (cycleEngine c s.engine) := hengine
    _ = sequencerStep s.engine (cycleEngine PortCycle.idle s.engine) := by rw [hdropped, cycleEngine_idle]
    _ = t'.engine := hengine'.symm

/-! ### Engines with the same control registers -/

/-- Two engines agree on FSM, RND and DONE. -/
def Engine.SameControl (x y : Engine) : Prop := x.fsm = y.fsm ∧ x.rnd = y.rnd ∧ x.done = y.done

section
variable {x x' y y' : Engine}

/-- Whether a START is accepted depends on FSM alone, and an accepted one writes the three registers with constants. -/
theorem transactionEngine_sameControl (i : Instr) (h : x.SameControl y) :
    (transactionEngine i x).SameControl (transactionEngine i y) := by
  cases i with
  | wrCtrl d =>
    obtain ⟨hfsm, -⟩ := id h
    have hboth : acceptsStart d x = acceptsStart d y := by simp only [acceptsStart, hfsm]
    by_cases haccepts : acceptsStart d y = true
    · rw [transactionEngine_wrCtrl_accepted haccepts, transactionEngine_wrCtrl_accepted (hboth.trans haccepts)]
      exact ⟨rfl, rfl, rfl⟩
    · rw [transactionEngine_wrCtrl_ignored haccepts, transactionEngine_wrCtrl_ignored (hboth ▸ haccepts)]
      exact h
  | _ => exact h

theorem cycleEngine_sameControl (c : PortCycle) (h : x.SameControl y) :
    (cycleEngine c x).SameControl (cycleEngine c y) := by
  unfold cycleEngine
  cases c.txn with
  | none => exact h
  | some cw => exact transactionEngine_sameControl _ h

/-- The sequencer branches on FSM and RND alone. -/
theorem sequencerStep_sameControl (hx : x.SameControl x') (hy : y.SameControl y') :
    (sequencerStep x y).SameControl (sequencerStep x' y') := by
  obtain ⟨hfsm, hrnd, -⟩ := hx
  obtain ⟨hfsm', hrnd', hdone'⟩ := id hy
  cases hf : x.fsm with
  | idle => rwa [sequencerStep_idle y hf, sequencerStep_idle y' (hfsm.symm.trans hf)]
  | round =>
    rw [sequencerStep_round y hf, sequencerStep_round y' (hfsm.symm.trans hf)]
    exact ⟨by simp [hrnd, hfsm'], by simp [hrnd], hdone'⟩
  | final =>
    rw [sequencerStep_final y hf, sequencerStep_final y' (hfsm.symm.trans hf)]
    exact ⟨rfl, hrnd', rfl⟩

end

/-- `step_cases`, for a cycle that is known to be no reset. -/
theorem step_engine_of_not_rst {s t : State} (hr : s.nextCycle.rst = false) (h : step s = .next t) :
    t.engine = sequencerStep s.engine (cycleEngine s.nextCycle s.engine) := by
  obtain ⟨hrst, -⟩ | ⟨-, -, hengine, -, -⟩ := step_cases h
  · simp [hr] at hrst
  · exact hengine

/-- Settles O32: two reset edges leave the same control registers, and otherwise both the cycle's transaction and the
sequencer's step keep the agreement. -/
theorem controlIsIndependentOfData : Obligations.ControlIsIndependentOfData := by
  intro s s' t t' hcycle hfsm hrnd hdone hstep hstep'
  have hsame : s.engine.SameControl s'.engine := ⟨hfsm, hrnd, hdone⟩
  cases hrst : s.nextCycle.rst with
  | true =>
    obtain rfl : resetEdge s.popCycle = t := by simpa [step_of_rst hrst] using hstep
    obtain rfl : resetEdge s'.popCycle = t' := by simpa [step_of_rst (hcycle ▸ hrst)] using hstep'
    exact ⟨rfl, rfl, rfl⟩
  | false =>
    have hafter : t.engine.SameControl t'.engine := by
      rw [step_engine_of_not_rst hrst hstep, step_engine_of_not_rst (hcycle ▸ hrst) hstep', ← hcycle]
      exact sequencerStep_sameControl hsame (cycleEngine_sameControl _ hsame)
    exact hafter

end Sys2Proof.Machine
end

section
/-! The cycle by cycle timing of a computation (70_reset_and_hazards.md R105): STATUS and RND follow from FSM and DONE
by the control invariant, no edge before FINAL writes DIGEST, and the result stands until the next START. -/

namespace Sys2Proof.Machine

/-! ### The control registers along a run -/

/-- What every step keeps, every run keeps. -/
theorem runFor_invariant {P : State → Prop} (hkeep : ∀ s t, P s → step s = .next t → P t) {n : Nat} {s t : State}
    (h : P s) (hrun : runFor n s = .next t) : P t := by
  induction n generalizing s with
  | zero =>
    cases hrun
    exact h
  | succ n ih =>
    obtain ⟨m, hfirst, hrest⟩ := runFor_succ_eq_next_iff.1 hrun
    exact ih (hkeep s m h hfirst) hrest

/-- The START edge sets the control registers, so they agree after it whatever they held before. -/
theorem runFor_controlOk {s t : State} (hstart : s.StartsNow) {n : Nat} (hrun : runFor (n + 1) s = .next t) :
    t.engine.ControlOk := by
  obtain ⟨u, hstep, hengine⟩ := step_of_startsNow hstart
  rw [runFor_succ n hstep] at hrun
  exact runFor_invariant controlInvariantIsKept (hengine ▸ s.engine.start_controlOk) hrun

theorem Engine.statusWord_of_idle {e : Engine} (h : e.fsm = .idle) :
    e.statusWord = 0#32 ∨ e.statusWord = 2#32 := by
  have hbusy : e.busy = false := by simp [Engine.busy, h]
  cases hdone : e.done <;> simp [Engine.statusWord_eq, hbusy, hdone]

/-! ### Up to FINAL -/

/-- DIGEST keeps the previous result in the cycles of ROUND and in that of FINAL: every edge up to it starts in IDLE or
in ROUND. -/
theorem runFor_digest {s t : State} (hstart : s.StartsNow) {i : Nat} (hi : i ≤ 64)
    (hr : NoReset (s.inputs.take (i + 1))) (hrun : runFor (i + 1) s = .next t) :
    t.engine.digest = s.engine.digest := by
  induction i generalizing t with
  | zero =>
    obtain ⟨u, hstep, hengine⟩ := step_of_startsNow hstart
    obtain rfl : u = t := by simpa [runFor, hstep] using hrun
    rw [hengine, Engine.start_digest]
  | succ i ih =>
    obtain ⟨hd, -⟩ := id hstart
    have hr' : NoReset (s.inputs.take (i + 1)) := hr.take_mono (by omega)
    obtain ⟨m, hrun', hround, -⟩ := runFor_atRound hstart (by omega) hr'
    obtain ⟨u, hrun'', hengine⟩ := runFor_succ_next hd hr hrun'
    obtain rfl : u = t := by simpa [hrun''] using hrun
    calc u.engine.digest = m.engine.digest := by simp [hengine, sequencerStep_digest, hround]
      _ = s.engine.digest := ih (by omega) hr' hrun'

/-- 64 edges after that of an accepted START. -/
theorem runFor_final {s : State} (hstart : s.StartsNow) (hr : NoReset (s.inputs.take 65)) :
    ∃ t, runFor 65 s = .next t ∧ t.engine.fsm = .final := by
  obtain ⟨hd, -⟩ := id hstart
  obtain ⟨t, hrun, hround⟩ := runFor_atRound hstart le_rfl (hr.take_mono (by decide))
  obtain ⟨u, hrun', hengine⟩ := runFor_succ_next hd hr hrun
  obtain ⟨hfinal, -⟩ := hround.final t.nextCycle
  exact ⟨u, hrun', hengine ▸ hfinal⟩

/-! ### From the FINAL edge to the next START -/

theorem not_isStart_idle : ¬ PortCycle.idle.IsStart := fun ⟨_, _, _, htxn, _⟩ => nomatch htxn

/-- Past the end of the list nothing is presented, no START either. -/
theorem not_isStart_of_drop {m n : Nat} (hmn : m ≤ n) {cs : List PortCycle}
    (h : ∀ c ∈ (cs.take (n + 1)).drop m, ¬ c.IsStart) : ¬ ((cs.drop n).headD PortCycle.idle).IsStart := by
  rw [List.headD_eq_head?_getD, List.head?_drop]
  cases hc : cs[n]? with
  | none => exact not_isStart_idle
  | some c =>
    have hmem : ((cs.take (n + 1)).drop m)[n - m]? = some c := by
      rw [List.getElem?_drop, Nat.add_sub_cancel' hmn, List.getElem?_take_of_lt n.lt_succ_self, hc]
    exact h c (List.mem_of_getElem? hmem)

/-- Once delivered, the result stands in every cycle until a START is presented. -/
theorem runFor_result {s : State} (hstart : s.StartsNow) {n : Nat} (hn : 65 ≤ n)
    (hr : NoReset (s.inputs.take (n + 1))) (hnoStart : ∀ c ∈ (s.inputs.take (n + 1)).drop 66, ¬ c.IsStart) :
    ∃ t, runFor (n + 1) s = .next t ∧ t.engine.fsm = .idle ∧ t.engine.done = true ∧
      t.engine.digest = compress s.engine.blockW := by
  induction n, hn using Nat.le_induction with
  | base => exact computationDeliversCompress s hstart hr
  | succ n hn ih =>
    have hearlier : (s.inputs.take (n + 1)).drop 66 ⊆ (s.inputs.take (n + 2)).drop 66 :=
      ((List.take_sublist_take_left (by omega)).drop 66).subset
    obtain ⟨t, hrun, hidle, hdone, hdigest⟩ := ih (hr.take_mono (by omega)) fun c hc => hnoStart c (hearlier hc)
    obtain ⟨hd, -⟩ := id hstart
    obtain ⟨hinputs, hreset⟩ := runFor_frame hd hrun
    have hrst : t.nextCycle.rst = false := by rw [State.nextCycle, hinputs, rst_of_noReset hr]
    have hother : ¬ t.nextCycle.IsStart := by
      rw [State.nextCycle, hinputs]
      exact not_isStart_of_drop (Nat.succ_le_succ hn) hnoStart
    obtain ⟨u, hstep, hdigest', hdone', hfsm', -⟩ := idleEngineKeepsItsResult t hreset hidle hrst hother
    exact ⟨u, runFor_succ_of_runFor hrun hstep, hfsm'.trans hidle, hdone'.trans hdone, hdigest'.trans hdigest⟩

/-- Settles O43: the run up to each cycle gives FSM, and the control invariant then gives RND and STATUS. -/
theorem computationTiming : Obligations.ComputationTiming := by
  intro s n hstart hr
  obtain ⟨-, hidle, -⟩ := id hstart
  refine ⟨Engine.statusWord_of_idle hidle, (Engine.controlOk_idle hidle).1, fun hn => ?_, ?_, fun hn hnoStart => ?_⟩
  · obtain ⟨t, hrun, hround, hrnd, -⟩ := runFor_atRound hstart (by omega) hr
    obtain ⟨hstatus, -⟩ := statusIsNeverThree t.engine (runFor_controlOk hstart hrun)
    exact ⟨t, hrun, hround, hrnd, hstatus (by simp [hround]), runFor_digest hstart hn.le hr hrun⟩
  · rintro rfl
    obtain ⟨t, hrun, hfinal⟩ := runFor_final hstart hr
    have hok : t.engine.ControlOk := runFor_controlOk hstart hrun
    obtain ⟨hrnd, -⟩ := (Engine.controlOk_final hfinal).1 hok
    obtain ⟨hstatus, -⟩ := statusIsNeverThree t.engine hok
    exact ⟨t, hrun, hfinal, hrnd, hstatus (by simp [hfinal]), runFor_digest hstart le_rfl hr hrun⟩
  · obtain ⟨t, hrun, hback, hdone, hdigest⟩ := runFor_result hstart hn hr hnoStart
    have hok : t.engine.ControlOk := runFor_controlOk hstart hrun
    obtain ⟨-, hstatus, -⟩ := statusIsNeverThree t.engine hok
    exact ⟨t, hrun, hback, (Engine.controlOk_idle hback).1 hok, hstatus hback hdone, hdigest⟩

end Sys2Proof.Machine
end
